-- ==== Sys2Proof/Word.lean ====
section
/-! DEFINITION. The words of the machine and the two widths they come in (spec 00_scope R6, R7, R9). -/

namespace Sys2Proof

/-- A 64-bit bus or register: the operand and result buses and every data register (R9). -/
abbrev Word := BitVec 64

/-- One 32-bit command word (R70). -/
abbrev CmdWord := BitVec 32

/-- A working width `W`, an engine width `ENGW` or a draw width `CW`: 32 or 64 and nothing else
(R6, R7, R34). -/
inductive Width where
  | w32
  | w64
deriving DecidableEq, Repr

/-- The width as a number of bits. -/
def Width.bits : Width → Nat
  | .w32 => 32
  | .w64 => 64

@[simp] theorem Width.bits_w32 : Width.w32.bits = 32 := rfl
@[simp] theorem Width.bits_w64 : Width.w64.bits = 64 := rfl

end Sys2Proof
end

