-- ==== Sys2Proof/Config.lean ====
section
/-! DEFINITION. What an implementation fixes: the two static parameters of the hardware (spec 00_scope R7, R8, R10) and
the free words of the engine (20_memory R55; 92_eei_decisions P3). -/

namespace Sys2Proof.Config

/-- The static parameters the model takes as arguments (R10): the engine's native width `ENGW` (R7)
and the wide-multiply capability `HAS_WIDE_MUL` (R8). They are configuration (R36): no step writes
them. -/
structure Params where
  engw : Width
  hasWideMul : Bool
deriving DecidableEq, Repr

/-- DESIGN CHOICE (log entry 2): the parameters of the one machine `State.reset` shows, those of the
spec's own example after reset (44_system R190). Every statement is over every value of them. -/
def resetParams : Params := { engw := .w32, hasWideMul := true }

/-- The engine's word at a position of its stream, where the run has not fixed it otherwise: a free
value, nothing constrains it (20_memory R55, "an unconstrained oracle (each word a free draw)"; log
entry 3). -/
opaque engineWord : Nat → Word

end Sys2Proof.Config
end

