-- ==== Sys2Proof/Machine/State.lean ====
section
/-! DEFINITION. The state of the core (spec 10_state R20), the ports and agents around it that a step reads (R33, R35, R36;
70_reset R234), the ways a step can stop, and the state after reset (R40, R230). -/

namespace Sys2Proof.Machine

/-- The error codes of a response, exactly five (60_exceptions R200; 93_implementation_defined U3). -/
inductive ErrCode where
  /-- 0, no error. -/
  | ok
  /-- 1, ERR_ILLEGAL: the word is no command (R202). -/
  | illegal
  /-- 2, ERR_RANGE: `low > high` on a checked constructor (R203). -/
  | range
  /-- 3, ERR_CAP: the intrinsic strategy without the wide multiply (R204). -/
  | cap
  /-- 4, ERR_NOGEN: NEXT with nothing bound (R205). -/
  | nogen
deriving DecidableEq, Repr

/-- The code as it stands on `err[3:0]` (R200). -/
def ErrCode.code : ErrCode → BitVec 4
  | .ok => 0
  | .illegal => 1
  | .range => 2
  | .cap => 3
  | .nogen => 4

/-- The response register `RSP` (10_state R32). -/
structure Response where
  err : ErrCode
  res0 : Word
  res1 : Word
deriving DecidableEq, Repr

/-- The sequencer register `PHASE` (10_state R31). -/
inductive Phase where
  | idle
  | fill
  | eval
deriving DecidableEq, Repr

/-- `CUR`: which command is in progress (10_state R34). -/
inductive Cur where
  | drawop
  | nextop
deriving DecidableEq, Repr

/-- The reuse variant of a generator (30_encoding R74): no-reuse, reuse, lazy-reuse. -/
inductive Variant where
  | nr
  | ru
  | lz
deriving DecidableEq, Repr

/-- One transfer on the command port: the word and its two operands (10_state R33 (a), 30_encoding R70). -/
structure Command where
  cmd : CmdWord
  op0 : Word
  op1 : Word
deriving DecidableEq, Repr

/-- One move of the host (70_reset R234): present a command, take the response, assert reset. `pass`
is the model's own: the host lets one step go by, so that a later move can land in any state (log
entry 4). -/
inductive HostMove where
  | issue (c : Command)
  | take
  | reset
  | pass
deriving DecidableEq, Repr

/-- The engine on the engine port (20_memory R55): its position `EPOS`, the next words of its stream as
far as the run fixes them, and whether it goes on answering after those (log entry 3; 70_reset R241). -/
structure Engine where
  given : List Word
  live : Bool
  pos : Nat
deriving DecidableEq, Repr

/-- The machine: the core's state, exactly as 10_state R20 lists it (`STATUS` and `CAP` are views,
R27), then the parameters of the hardware, the command port, the host's moves still to come and the
engine. -/
structure State where
  /-- `A`, the unsigned image of the lower bound (R21). -/
  a : Word
  /-- `B`, the unsigned image of the upper bound (R21). -/
  b : Word
  /-- `DIST`, the distance; 0 means 2^W (R21). -/
  dist : Word
  /-- `THR`, the rejection threshold, meaningful while `THRV = 1` (R21, R25). -/
  thr : Word
  /-- `UPPER`, the upper half of the last extended product (R21). -/
  upper : Word
  /-- `LOWER`, the lower half of the last extended product (R21). -/
  lower : Word
  /-- `GV`, a generator is bound (R24). -/
  gv : Bool
  /-- `THRV`, the threshold has been computed (R25). -/
  thrv : Bool
  /-- `RSPV`, a response waits to be taken (R26). -/
  rspv : Bool
  /-- `CFG`, the configuration of the bound generator (R28). -/
  cfg : Word
  /-- `PHASE` (R31). -/
  phase : Phase
  /-- `CUR` (R34). -/
  cur : Cur
  /-- `CW`, the width of the draw being collected (R34). -/
  cw : Width
  /-- `CNT`, engine words still needed for the draw (R34). -/
  cnt : Fin 3
  /-- `ACC`, the draw assembled so far (R34). -/
  acc : Word
  /-- `RSP`, the response register (R32). -/
  rsp : Response
  /-- `ENGW` and `HAS_WIDE_MUL` (00_scope R7, R8). -/
  par : Config.Params
  /-- The command port: what the host presented last (R33 (a)). -/
  bus : Command
  /-- The host's moves still to come, in order (70_reset R234; log entry 4). -/
  host : List HostMove
  /-- The engine (20_memory R55; log entry 3). -/
  engine : Engine
deriving DecidableEq, Repr

/-- Why a step can stop with a fault. -/
inductive Fault where
  /-- Raised by the engine step S2 in a state with `PHASE = FILL` and `CNT = 0`, which 10_state R35
  and R41 (b) exclude and no rule gives a meaning. Safe: the model stops where nothing is said, and no
  run from reset gets there (log entry 8). -/
  | fillWithoutCount
deriving DecidableEq, Repr

/-- Why a step can refuse. -/
inductive Refusal where
  /-- Raised by `exec` for an instruction that has no meaning yet (none is left). Safe. -/
  | notModelled (mnemonic : String)
  /-- Raised by NEWGEN with `chk = 0` and `low > high` in the caller's domain, whose behaviour the
  spec calls UNDEFINED and asks a model to refuse (43_generator R157 (d); 93_implementation_defined
  U1). Safe (log entry 7). -/
  | uncheckedRange
deriving DecidableEq, Repr

/-- The core after reset beside given surroundings: every value R40 states, and for the registers R40
leaves unspecified (`A`, `B`, `DIST`, `THR`, `UPPER`, `LOWER`, `CUR`, `CW`, `RSP`) the values of log
entry 1 (DESIGN CHOICE). Parameters, port, host and engine are not the core's to reset (R230). -/
def State.resetCore (par : Config.Params) (bus : Command) (host : List HostMove) (engine : Engine) :
    State where
  a := 0
  b := 0
  dist := 0
  thr := 0
  upper := 0
  lower := 0
  gv := false
  thrv := false
  rspv := false
  cfg := 0
  phase := .idle
  cur := .drawop
  cw := .w32
  cnt := 0
  acc := 0
  rsp := { err := .ok, res0 := 0, res1 := 0 }
  par := par
  bus := bus
  host := host
  engine := engine

/-- The machine right after reset, nothing placed: the parameters of log entry 2, an empty command
port, no move of the host yet, the engine live at the start of its stream. -/
def State.reset : State :=
  State.resetCore Config.resetParams { cmd := 0, op0 := 0, op1 := 0 } []
    { given := [], live := true, pos := 0 }

end Sys2Proof.Machine
end

