-- ==== Sys2Proof/Machine/Operands.lean ====
section
/-! DEFINITION. Values of width W on 64-bit buses and registers, the arithmetic primitives (spec 00_scope R12, R13), the
three multiply strategies (40_extmul R100 to R104), the transposition (42_transposition R135, R136), the assembly of draws
(41_adapter R120 to R123) and the configuration word (10_state R28). -/

namespace Sys2Proof.Machine

/-- The width a `w` field or `CFG.W64` stands for (30_encoding R74). -/
def widthOf (w : Bool) : Width := if w then .w64 else .w32

/-- `v[W-1:0]`, zero-extended: how a W-bit value is read from a bus and kept in a register (R12). -/
def low (w : Width) (v : Word) : Word :=
  match w with
  | .w32 => (v.setWidth 32).setWidth 64
  | .w64 => v

/-- `sbit_W = 2^(W-1)` (R13). -/
def sbit : Width → Word
  | .w32 => 0x80000000
  | .w64 => 0x8000000000000000

/-- `add_W` (R13). -/
def addW (w : Width) (x y : Word) : Word := low w (x + y)

/-- `sub_W` (R13). -/
def subW (w : Width) (x y : Word) : Word := low w (x - y)

/-- `neg_W` (R13). -/
def negW (w : Width) (x : Word) : Word := low w (-x)

/-- An extended product, `(upper, lower)` (40_extmul R100). -/
structure Product where
  upper : Word
  lower : Word
deriving DecidableEq, Repr

/-- `extmul`: the exact 128-bit product of two unsigned 64-bit values (R100); the intrinsic strategy
computes it directly (R103). -/
def extmul (x y : Word) : Product where
  upper := BitVec.ofNat 64 (x.toNat * y.toNat / 2 ^ 64)
  lower := BitVec.ofNat 64 (x.toNat * y.toNat)

/-- `v[31:0]`, zero-extended (R101). -/
def lo32 (v : Word) : Word := v &&& 0xFFFFFFFF

/-- `v[63:32]`, zero-extended (R101). -/
def hi32 (v : Word) : Word := v >>> 32

/-- `{hi, lo}` of two 32-bit digits (R11, R101). -/
def digits (hi lo : Word) : Word := (hi <<< 32) ||| lo

/-- The schoolbook strategy: four partial products, summed column by column with the carries
propagated (R101). -/
def extmulSchoolbook (x y : Word) : Product :=
  let p00 := lo32 x * lo32 y
  let p01 := lo32 x * hi32 y
  let p10 := hi32 x * lo32 y
  let p11 := hi32 x * hi32 y
  let c0 := lo32 p00
  let s1 := hi32 p00 + lo32 p01 + lo32 p10
  let c1 := lo32 s1
  let s2 := hi32 s1 + hi32 p01 + hi32 p10 + lo32 p11
  let c2 := lo32 s2
  let s3 := hi32 s2 + hi32 p11
  let c3 := lo32 s3
  { upper := digits c3 c2, lower := digits c1 c0 }

/-- The optimized strategy: the carries folded earlier (R102; the form is the spec's general
knowledge G2, log entry 13). -/
def extmulOptimized (x y : Word) : Product :=
  let p00 := lo32 x * lo32 y
  let t := hi32 x * lo32 y + hi32 p00
  let tl := lo32 x * hi32 y + lo32 t
  { upper := hi32 x * hi32 y + hi32 t + hi32 tl, lower := digits (lo32 tl) (lo32 p00) }

/-- `extmul_W`: the double-width multiply of the working width; at W = 32 the two halves of the low
word of the 64-bit multiplier's product (R104). -/
def extmulW (w : Width) (r d : Word) : Product :=
  match w with
  | .w64 => extmul r d
  | .w32 =>
    let p := (extmul r d).lower
    { upper := hi32 p, lower := lo32 p }

/-- The threshold function `thr_W(d) = neg_W(d) mod d`, used at `d ≠ 0` only (43_generator R153). -/
def thrW (w : Width) (d : Word) : Word := negW w d % d

/-- `to_unsigned_W,S` (42_transposition R135). -/
def toUnsigned (w : Width) (sg : Bool) (v : Word) : Word := if sg then v ^^^ sbit w else v

/-- `to_signed_W,S`, the inverse (42_transposition R136). -/
def toSigned (w : Width) (sg : Bool) (u : Word) : Word := if sg then u ^^^ sbit w else u

/-- `eng_data`: the `ENGW` bits the engine port carries (10_state R33 (c), 20_memory R55 (a)). -/
def engData (engw : Width) (e : Word) : Word := low engw e

/-- `k(W, ENGW)`: engine words per draw (20_memory R56, 41_adapter R122). -/
def wordsPerDraw (engw w : Width) : Fin 3 :=
  match engw, w with
  | .w32, .w64 => 2
  | .w32, .w32 => 1
  | .w64, .w64 => 1
  | .w64, .w32 => 1

/-- What S2 makes of `ACC` and one engine word: the low `CW` bits of the word, or the word appended
below what is there (41_adapter R123). -/
def foldWord (engw cw : Width) (acc e : Word) : Word :=
  if cw.bits ≤ engw.bits then low cw e else low cw ((acc <<< engw.bits) ||| e)

/-- The `var` code of a variant (30_encoding R74). -/
def Variant.code : Variant → BitVec 2
  | .nr => 0
  | .ru => 1
  | .lz => 2

/-- `cmd & 0x3F0` of a NEWGEN word with these fields: MUL [5:4], VAR [7:6], W64 [8], SGN [9]
(10_state R28). -/
def cfgWord (mul : BitVec 2) (v : Variant) (w sg : Bool) : Word :=
  (BitVec.ofBool sg ++ (BitVec.ofBool w ++ (v.code ++ (mul ++ 0#4)))).setWidth 64

/-- `CFG.MUL` (10_state R28). -/
def State.cfgMul (s : State) : BitVec 2 := s.cfg.extractLsb' 4 2

/-- `CFG.VAR` (10_state R28). -/
def State.cfgVar (s : State) : BitVec 2 := s.cfg.extractLsb' 6 2

/-- The working width of the generator, `CFG.W64` (10_state R28). -/
def State.cfgWidth (s : State) : Width := widthOf (s.cfg.getLsbD 8)

/-- The caller's domain is signed, `CFG.SGN` (10_state R28). -/
def State.cfgSigned (s : State) : Bool := s.cfg.getLsbD 9

end Sys2Proof.Machine
end

