-- ==== Sys2Proof/Machine/Flags.lean ====
section
/-! DEFINITION. What the flags are computed from and where they show: the threshold and its flag at construction (spec
43_generator R154 to R156), the accept decision (R164), the views STATUS and CAP (10_state R29, R30) and when the host may
issue (R35). -/

namespace Sys2Proof.Machine

/-- `THR` and `THRV` as NEWGEN leaves them: only the reuse variant with a non-zero distance computes
the threshold at construction (R154, R155, R156). -/
def thresholdAtBind (v : Variant) (w : Width) (d : Word) : Word × Bool :=
  match v with
  | .nr => (0, false)
  | .ru => if d = 0 then (0, false) else (thrW w d, true)
  | .lz => (0, false)

/-- Fast accept: the threshold is unknown and the lower half is not below the distance (R164). -/
def fastAccept (thrv : Bool) (l d : Word) : Bool := !thrv && decide (d ≤ l)

/-- The `STATUS` view: bit 0 `GV`, bit 1 `THRV`, the rest 0 (10_state R29). -/
def State.statusView (s : State) : Word :=
  (BitVec.ofBool s.thrv ++ BitVec.ofBool s.gv).setWidth 64

/-- The `CAP` view: bit 0 `WIDE`, bit 1 `ENGW64`, the rest 0 (10_state R30). -/
def State.capView (s : State) : Word :=
  (BitVec.ofBool (s.par.engw = .w64) ++ BitVec.ofBool s.par.hasWideMul).setWidth 64

/-- The `CFG` register as RDREG shows it: bits outside [9:4] read 0 (10_state R28). -/
def State.cfgView (s : State) : Word := s.cfg &&& 0x3F0

/-- S1 is enabled: `PHASE = IDLE` and `RSPV = 0` (10_state R35). -/
def State.ready (s : State) : Bool := s.phase = .idle && !s.rspv

end Sys2Proof.Machine
end

