-- ==== Sys2Proof/Machine/Ops.lean ====
section
/-! DEFINITION. The shared operations on the state: completing a command, raising an error (taking the exception) and the
host's take beside it, reset, the register read, the draws and the engine access (spec 00_scope R14; 60_exceptions R201;
10_state R23, R35; 41_adapter R122, R123; 20_memory R55). -/

namespace Sys2Proof.Machine

/-- The outcome of a step of this machine. -/
abbrev Result := Host.Outcome State Fault Refusal

/-- `respond(err, r0, r1)`: write `RSP`, `RSPV <- 1`, `PHASE <- IDLE` (R14). -/
def State.respond (s : State) (err : ErrCode) (r0 r1 : Word) : State :=
  { s with rsp := { err := err, res0 := r0, res1 := r1 }, rspv := true, phase := .idle }

/-- `raise <Error>`: taking an exception on this hardware. The response carries the code and two
zeros, and nothing else is written (R14, 60_exceptions R201, R209). -/
def State.raise (s : State) (err : ErrCode) : State := s.respond err 0 0

/-- S4, beside it: the host takes the response, `RSPV <- 0`; what it reads is `RSP` (10_state R26,
R35). There is no return from an error, the next command starts from IDLE (60_exceptions R210). -/
def State.takeResponse (s : State) : State := { s with rspv := false }

/-- S5: reset of the core; parameters, port, host and engine keep what they hold (70_reset R230,
R231). -/
def State.coreReset (s : State) : State := State.resetCore s.par s.bus s.host s.engine

/-- `x[i]`: the register a number names, `none` for a number that names none (10_state R23). -/
def State.readReg (s : State) (n : BitVec 4) : Option Word :=
  match n with
  | 0 => some s.a
  | 1 => some s.b
  | 2 => some s.dist
  | 3 => some s.thr
  | 4 => some s.upper
  | 5 => some s.lower
  | 8 => some s.cfgView
  | 9 => some s.statusView
  | 10 => some s.capView
  | _ => none

/-- `UPPER <- u; LOWER <- l` (40_extmul R106, 43_generator R163). -/
def State.setProduct (s : State) (p : Product) : State :=
  { s with upper := p.upper, lower := p.lower }

/-- `start_draw(W)` (41_adapter R122). -/
def State.startDraw (s : State) (w : Width) : State :=
  { s with cw := w, acc := 0, cnt := wordsPerDraw s.par.engw w, phase := .fill }

/-- `EngNext()`: the next word of the engine's stream, the engine advanced by one; `none` while the
engine is silent (20_memory R55; 70_reset R241; log entry 3). -/
def State.engNext (s : State) : Option (Word × State) :=
  match s.engine.given with
  | e :: es =>
    some (engData s.par.engw e,
      { s with engine := { s.engine with given := es, pos := s.engine.pos + 1 } })
  | [] =>
    if s.engine.live then
      some (engData s.par.engw (Config.engineWord s.engine.pos),
        { s with engine := { s.engine with pos := s.engine.pos + 1 } })
    else none

/-- What S2 does with the word: fold it into `ACC`, `CNT <- CNT - 1`, to EVAL when `CNT` reaches 0
(41_adapter R123). `CNT = 0` is excluded there (10_state R35; log entry 8). -/
def State.acceptWord (s : State) (e : Word) : Result :=
  let acc := foldWord s.par.engw s.cw s.acc e
  match s.cnt with
  | 0 => .fault .fillWithoutCount
  | 1 => .next { s with acc := acc, cnt := 0, phase := .eval }
  | 2 => .next { s with acc := acc, cnt := 1 }

end Sys2Proof.Machine
end

