-- ==== Sys2Proof/Machine/Adapter.lean ====
section
/-! DEFINITION. The bit source adapter: the DRAW commands (spec 41_adapter R126, R127), the engine step S2 (R123) and the
evaluation of a DRAW (R124). -/

namespace Sys2Proof.Machine

/-- Step S1 of a DRAW of width W: `CUR <- DRAWOP; start_draw(W)`. -/
def beginDraw (w : Width) (s : State) : Result :=
  .next (State.startDraw { s with cur := .drawop } w)

/-- DRAW.32, step S1 (R126). -/
def execDraw32 (s : State) : Result := beginDraw .w32 s

/-- DRAW.64, step S1 (R127). -/
def execDraw64 (s : State) : Result := beginDraw .w64 s

/-- S2, one engine word (R123). While the engine is silent the core stays in FILL: the step leaves the
state as it is (70_reset R241; log entry 6). -/
def fillStep (s : State) : Result :=
  match s.engNext with
  | some (e, t) => t.acceptWord e
  | none => .next s

/-- S3 with `CUR = DRAWOP`: `respond(OK, ACC, 0)` (R124). -/
def evalDraw (s : State) : State := s.respond .ok s.acc 0

end Sys2Proof.Machine
end

