-- ==== Sys2Proof/Machine/ExtMul.lean ====
section
/-! DEFINITION. The extended multiply commands (spec 40_extmul R106 to R109). -/

namespace Sys2Proof.Machine

/-- The common effect: the product to `UPPER`, `LOWER` and to the response, `res0 = lower`,
`res1 = upper` (R106). -/
def finishExtmul (p : Product) (s : State) : Result :=
  .next ((s.setProduct p).respond .ok p.lower p.upper)

/-- EXTMUL.S: the product by the schoolbook strategy (R107). -/
def execExtmulS (s : State) : Result := finishExtmul (extmulSchoolbook s.bus.op0 s.bus.op1) s

/-- EXTMUL.O: the product by the optimized strategy (R108). -/
def execExtmulO (s : State) : Result := finishExtmul (extmulOptimized s.bus.op0 s.bus.op1) s

/-- EXTMUL.I: ERR_CAP without the wide multiply, else the product computed directly (R109, R103). -/
def execExtmulI (s : State) : Result :=
  if s.par.hasWideMul then finishExtmul (extmul s.bus.op0 s.bus.op1) s else .next (s.raise .cap)

end Sys2Proof.Machine
end

