-- ==== Sys2Proof/Machine/Generator.lean ====
section
/-! DEFINITION. The bounded generator: construction (spec 43_generator R151 to R157), invocation (R158, R160) and the
evaluation of a completed draw (R162 to R166). -/

namespace Sys2Proof.Machine

/-- The registers a successful NEWGEN writes (R152), for the images `ua`, `ub` of the bounds. -/
def bindGenerator (v : Variant) (mul : BitVec 2) (w sg : Bool) (ua ub : Word) (s : State) : State :=
  let d := addW (widthOf w) (subW (widthOf w) ub ua) 1
  let t := thresholdAtBind v (widthOf w) d
  { s with a := ua, b := ub, dist := d, cfg := cfgWord mul v w sg, gv := true, thr := t.1, thrv := t.2 }

/-- NEWGEN of a variant: the checks of R151 in their order, then the effect of R152. The unchecked
form with `low > high` is UNDEFINED and refused (R157 (d); log entry 7). -/
def newgen (v : Variant) (mul : BitVec 2) (w sg chk : Bool) (s : State) : Result :=
  if mul = 3 then .next (s.raise .illegal)
  else if mul = 2 ∧ s.par.hasWideMul = false then .next (s.raise .cap)
  else
    let ua := toUnsigned (widthOf w) sg (low (widthOf w) s.bus.op0)
    let ub := toUnsigned (widthOf w) sg (low (widthOf w) s.bus.op1)
    if ub < ua then
      if chk then .next (s.raise .range) else .refused .uncheckedRange
    else .next ((bindGenerator v mul w sg ua ub s).respond .ok 0 0)

/-- NEWGEN.NR, the no-reuse variant (R154). -/
def execNewgenNR (mul : BitVec 2) (w sg chk : Bool) (s : State) : Result := newgen .nr mul w sg chk s

/-- NEWGEN.RU, the reuse variant (R155). -/
def execNewgenRU (mul : BitVec 2) (w sg chk : Bool) (s : State) : Result := newgen .ru mul w sg chk s

/-- NEWGEN.LZ, the lazy-reuse variant (R156). -/
def execNewgenLZ (mul : BitVec 2) (w sg chk : Bool) (s : State) : Result := newgen .lz mul w sg chk s

/-- The no-reuse recomputation at the start of NEXT (R160); the other variants write nothing. -/
def refreshNoReuse (s : State) : State :=
  if s.cfgVar = Variant.nr.code then
    { s with dist := addW s.cfgWidth (subW s.cfgWidth s.b s.a) 1, thrv := false }
  else s

/-- NEXT, step S1: ERR_NOGEN with nothing bound, else the no-reuse recomputation and the first draw
(R158, R160). -/
def execNext (s : State) : Result :=
  if s.gv then .next (State.startDraw { refreshNoReuse s with cur := .nextop } s.cfgWidth)
  else .next (s.raise .nogen)

/-- Accept with offset `u`: the sample `to_signed(A + u)` (R166). -/
def acceptDraw (u : Word) (s : State) : State :=
  s.respond .ok (toSigned s.cfgWidth s.cfgSigned (addW s.cfgWidth (low s.cfgWidth s.a) u)) 0

/-- The threshold, computed here if it is not known yet (R164). -/
def ensureThreshold (s : State) : State :=
  if s.thrv then s
  else { s with thr := thrW s.cfgWidth (low s.cfgWidth s.dist), thrv := true }

/-- The decision on a scaled draw `(u, l)`: fast accept, or compare `l` with the threshold, and accept
or start a fresh draw (R164, R165). -/
def decideDraw (p : Product) (s : State) : State :=
  if fastAccept s.thrv p.lower (low s.cfgWidth s.dist) then acceptDraw p.upper s
  else
    let t := ensureThreshold s
    if low t.cfgWidth t.thr ≤ p.lower then acceptDraw p.upper t else t.startDraw t.cfgWidth

/-- S3 with `CUR = NEXTOP`: the draw itself in the full-width case (R162), else the scaled draw (R163)
and the decision on it. `DIST` is read as its W bits (log entry 10). -/
def evalNext (s : State) : State :=
  let r := low s.cfgWidth s.acc
  let d := low s.cfgWidth s.dist
  if d = 0 then s.respond .ok (toSigned s.cfgWidth s.cfgSigned r) 0
  else
    let p := extmulW s.cfgWidth r d
    decideDraw p (s.setProduct p)

end Sys2Proof.Machine
end

