-- ==== Sys2Proof/Machine/System.lean ====
section
/-! DEFINITION. The register read-out command (spec 44_system R190). -/

namespace Sys2Proof.Machine

/-- RDREG: the register the number names, or ERR_ILLEGAL if it names none (R190). -/
def execRdreg (reg : BitVec 4) (s : State) : Result :=
  match s.readReg reg with
  | some v => .next (s.respond .ok v 0)
  | none => .next (s.raise .illegal)

end Sys2Proof.Machine
end

