-- ==== Sys2Proof/Machine/Transposition.lean ====
section
/-! DEFINITION. The ordering transposition commands (spec 42_transposition R137, R138). -/

namespace Sys2Proof.Machine

/-- TOUNS: the unsigned image of `op0[W-1:0]`, zero-extended (R137). -/
def execTouns (w sg : Bool) (s : State) : Result :=
  .next (s.respond .ok (toUnsigned (widthOf w) sg (low (widthOf w) s.bus.op0)) 0)

/-- TOSGN: the caller-domain pattern of the image `op0[W-1:0]`, zero-extended (R138). -/
def execTosgn (w sg : Bool) (s : State) : Result :=
  .next (s.respond .ok (toSigned (widthOf w) sg (low (widthOf w) s.bus.op0)) 0)

end Sys2Proof.Machine
end

