-- ==== Sys2Proof/Syntax.lean ====
section
/-! DEFINITION. The twelve command forms of the opcode map (spec 30_encoding R77), one constructor per row. The data
operands travel on the buses `op0`, `op1`, never in the command (R75), so they are no fields here. -/

namespace Sys2Proof

/-- One command. The fields are those the row leaves free, as the command word holds them (R71, R74);
`WellFormed` says which of their values are legal. -/
inductive Instr where
  /-- EXTMUL.S: extended multiply, schoolbook strategy (40_extmul R107). -/
  | extmulS
  /-- EXTMUL.O: extended multiply, optimized strategy (40_extmul R108). -/
  | extmulO
  /-- EXTMUL.I: extended multiply, intrinsic strategy (40_extmul R109). -/
  | extmulI
  /-- DRAW.32: one 32-bit draw of the bit source adapter (41_adapter R126). -/
  | draw32
  /-- DRAW.64: one 64-bit draw of the bit source adapter (41_adapter R127). -/
  | draw64
  /-- TOUNS: ordering transposition, caller's domain to unsigned image (42_transposition R137). -/
  | touns (w sg : Bool)
  /-- TOSGN: the inverse transposition (42_transposition R138). -/
  | tosgn (w sg : Bool)
  /-- NEWGEN.NR: bind a generator of the no-reuse variant (43_generator R154). -/
  | newgenNR (mul : BitVec 2) (w sg chk : Bool)
  /-- NEWGEN.RU: bind a generator of the reuse variant (43_generator R155). -/
  | newgenRU (mul : BitVec 2) (w sg chk : Bool)
  /-- NEWGEN.LZ: bind a generator of the lazy-reuse variant (43_generator R156). -/
  | newgenLZ (mul : BitVec 2) (w sg chk : Bool)
  /-- NEXT: one sample of the bound generator (43_generator R158). -/
  | next
  /-- RDREG: read one register by number (44_system R190). -/
  | rdreg (reg : BitVec 4)
deriving DecidableEq, Repr

end Sys2Proof
end

