-- ==== Sys2Proof/Machine/Dispatch.lean ====
section
/-! DEFINITION. One arm per command form of the opcode map (spec 30_encoding R77): what the command does in step S1. -/

namespace Sys2Proof.Machine

def exec (i : Instr) (s : State) : Host.Outcome State Fault Refusal :=
  match i with
  | .extmulS => Sys2Proof.Machine.execExtmulS s
  | .extmulO => Sys2Proof.Machine.execExtmulO s
  | .extmulI => Sys2Proof.Machine.execExtmulI s
  | .draw32 => Sys2Proof.Machine.execDraw32 s
  | .draw64 => Sys2Proof.Machine.execDraw64 s
  | .touns w sg => Sys2Proof.Machine.execTouns w sg s
  | .tosgn w sg => Sys2Proof.Machine.execTosgn w sg s
  | .newgenNR mul w sg chk => Sys2Proof.Machine.execNewgenNR mul w sg chk s
  | .newgenRU mul w sg chk => Sys2Proof.Machine.execNewgenRU mul w sg chk s
  | .newgenLZ mul w sg chk => Sys2Proof.Machine.execNewgenLZ mul w sg chk s
  | .next => Sys2Proof.Machine.execNext s
  | .rdreg reg => Sys2Proof.Machine.execRdreg reg s

end Sys2Proof.Machine
end

