-- ==== Sys2Proof/WellFormed.lean ====
section
/-! DEFINITION. Which field values of a command are legal (spec 30_encoding R74, R80 (d) and (f)). -/

namespace Sys2Proof

/-- The strategy field names a strategy: 0 MS, 1 MO, 2 MI; 3 is reserved (R74). -/
abbrev mulLegal (mul : BitVec 2) : Prop := mul ≠ 3

/-- The register number names a register: 0 to 5 and 8 to 10 (10_state R23). -/
abbrev regLegal (reg : BitVec 4) : Prop := reg ≤ 5 ∨ (8 ≤ reg ∧ reg ≤ 10)

/-- Every field of the command has a legal value. -/
abbrev WellFormed : Instr → Prop
  | .extmulS => True
  | .extmulO => True
  | .extmulI => True
  | .draw32 => True
  | .draw64 => True
  | .touns _ _ => True
  | .tosgn _ _ => True
  | .newgenNR mul _ _ _ => mulLegal mul
  | .newgenRU mul _ _ _ => mulLegal mul
  | .newgenLZ mul _ _ _ => mulLegal mul
  | .next => True
  | .rdreg reg => regLegal reg

end Sys2Proof
end

