-- ==== Sys2Proof/Decode.lean ====
section
/-! DEFINITION. The decoder of the command word, total on all 2^32 words and rejecting by name (spec 30_encoding R71 to R80), and
after it the encoder, both written from the field layout of R71. -/

namespace Sys2Proof

/-- The seven fields of format `C` and its reserved bits, as the word holds them (R71). -/
structure Fields where
  op : BitVec 4
  mul : BitVec 2
  var : BitVec 2
  w : Bool
  sg : Bool
  chk : Bool
  reg : BitVec 4
  zero : BitVec 17
deriving DecidableEq, Repr

/-- The word cut into its fields (R71). -/
def fieldsOf (c : CmdWord) : Fields where
  op := c.extractLsb' 0 4
  mul := c.extractLsb' 4 2
  var := c.extractLsb' 6 2
  w := c.getLsbD 8
  sg := c.getLsbD 9
  chk := c.getLsbD 10
  reg := c.extractLsb' 11 4
  zero := c.extractLsb' 15 17

/-- Why a word is no command: the clauses of R80. -/
inductive Illegal where
  /-- `cmd[31:15]` is not 0: R80 (a). -/
  | reservedBits
  /-- `op` is 0 or 8 to 15: R80 (b). -/
  | opcode
  /-- a field this `op` does not use is not 0: R80 (c). -/
  | unusedField
  /-- EXTMUL or NEWGEN with `mul = 3`: R80 (d). -/
  | strategy
  /-- NEWGEN with `var = 3`: R80 (e). -/
  | variant
  /-- RDREG of a number that names no register: R80 (f). -/
  | register
deriving DecidableEq, Repr

/-- The command, if the fields that must be 0 are (R73). -/
def ifUnusedZero (unusedZero : Bool) (r : Except Illegal Instr) : Except Illegal Instr :=
  if unusedZero then r else .error .unusedField

/-- `op = 1`, EXTMUL: uses `mul` only; 3 is reserved (R73, R74). -/
def decodeExtmul (f : Fields) : Except Illegal Instr :=
  ifUnusedZero (f.var == 0 && !f.w && !f.sg && !f.chk && f.reg == 0)
    (match f.mul with
      | 0 => .ok .extmulS
      | 1 => .ok .extmulO
      | 2 => .ok .extmulI
      | _ => .error .strategy)

/-- `op = 2`, DRAW: uses `w` only (R73). -/
def decodeDraw (f : Fields) : Except Illegal Instr :=
  ifUnusedZero (f.mul == 0 && f.var == 0 && !f.sg && !f.chk && f.reg == 0)
    (.ok (if f.w then .draw64 else .draw32))

/-- `op = 3` and `op = 4`, TOUNS and TOSGN: use `w` and `sg` (R73). -/
def decodeTransposition (mk : Bool → Bool → Instr) (f : Fields) : Except Illegal Instr :=
  ifUnusedZero (f.mul == 0 && f.var == 0 && !f.chk && f.reg == 0) (.ok (mk f.w f.sg))

/-- `op = 5`, NEWGEN: uses `mul`, `var`, `w`, `sg`, `chk`; 3 is reserved in the first two (R73, R74). -/
def decodeNewgen (f : Fields) : Except Illegal Instr :=
  ifUnusedZero (f.reg == 0)
    (if f.mul = 3 then .error .strategy
      else match f.var with
        | 0 => .ok (.newgenNR f.mul f.w f.sg f.chk)
        | 1 => .ok (.newgenRU f.mul f.w f.sg f.chk)
        | 2 => .ok (.newgenLZ f.mul f.w f.sg f.chk)
        | _ => .error .variant)

/-- `op = 6`, NEXT: uses no field (R73). -/
def decodeNext (f : Fields) : Except Illegal Instr :=
  ifUnusedZero (f.mul == 0 && f.var == 0 && !f.w && !f.sg && !f.chk && f.reg == 0) (.ok .next)

/-- `op = 7`, RDREG: uses `reg`, which must name a register (R73, R74). -/
def decodeRdreg (f : Fields) : Except Illegal Instr :=
  ifUnusedZero (f.mul == 0 && f.var == 0 && !f.w && !f.sg && !f.chk)
    (if regLegal f.reg then .ok (.rdreg f.reg) else .error .register)

/-- The decoder of R78 on the fields: reserved bits, then `op`, then the unused fields, then the
reserved values. The side conditions ERR_CAP and ERR_NOGEN are no matter of decoding (R78 (5)). -/
def decodeFields (f : Fields) : Except Illegal Instr :=
  if f.zero = 0 then
    match f.op with
    | 1 => decodeExtmul f
    | 2 => decodeDraw f
    | 3 => decodeTransposition .touns f
    | 4 => decodeTransposition .tosgn f
    | 5 => decodeNewgen f
    | 6 => decodeNext f
    | 7 => decodeRdreg f
    | _ => .error .opcode
  else .error .reservedBits

/-- The decoder: every word is one command or illegal by one of the names above (R78). -/
def decode (c : CmdWord) : Except Illegal Instr := decodeFields (fieldsOf c)

/-- The fields laid side by side, bit 0 the least significant (R11, R71). -/
def packFields (f : Fields) : CmdWord :=
  f.zero ++ (f.reg ++ (BitVec.ofBool f.chk ++ (BitVec.ofBool f.sg ++
    (BitVec.ofBool f.w ++ (f.var ++ (f.mul ++ f.op))))))

/-- The fields of a command: its `op` (R72), the fields its row leaves free, 0 elsewhere (R73, R77). -/
def instrFields : Instr → Fields
  | .extmulS => ⟨1, 0, 0, false, false, false, 0, 0⟩
  | .extmulO => ⟨1, 1, 0, false, false, false, 0, 0⟩
  | .extmulI => ⟨1, 2, 0, false, false, false, 0, 0⟩
  | .draw32 => ⟨2, 0, 0, false, false, false, 0, 0⟩
  | .draw64 => ⟨2, 0, 0, true, false, false, 0, 0⟩
  | .touns w sg => ⟨3, 0, 0, w, sg, false, 0, 0⟩
  | .tosgn w sg => ⟨4, 0, 0, w, sg, false, 0, 0⟩
  | .newgenNR mul w sg chk => ⟨5, mul, 0, w, sg, chk, 0, 0⟩
  | .newgenRU mul w sg chk => ⟨5, mul, 1, w, sg, chk, 0, 0⟩
  | .newgenLZ mul w sg chk => ⟨5, mul, 2, w, sg, chk, 0, 0⟩
  | .next => ⟨6, 0, 0, false, false, false, 0, 0⟩
  | .rdreg reg => ⟨7, 0, 0, false, false, false, reg, 0⟩

/-- The encoder: the one word of a well-formed command (R77). -/
def encode (i : Instr) : CmdWord := packFields (instrFields i)

/-- The command of an opcode-table word: `nbits` bits of `w`, every higher bit of the 32-bit command
word 0. A word that does not fit the one 32-bit format is no command (R70). -/
def decodeTableWord (nbits w : Nat) : Option Instr :=
  let bits := w % 2 ^ nbits
  if bits < 2 ^ 32 then
    match decode (BitVec.ofNat 32 bits) with
    | .ok i => some i
    | .error _ => none
  else none

end Sys2Proof
end

