-- ==== Sys2Proof/Machine/Sequencer.lean ====
section
/-! DEFINITION. Which of the steps S1 to S5 happens next (spec 10_state R35; 70_reset R230, R234). -/

namespace Sys2Proof.Machine

/-- S3: the core evaluates a complete draw for the command in progress (10_state R35). -/
def evalStep (s : State) : State :=
  match s.cur with
  | .drawop => evalDraw s
  | .nextop => evalNext s

/-- The step of the core and the engine alone: S2 in FILL, S3 in EVAL. In IDLE neither is enabled and
the state stays as it is (log entry 6). -/
def coreStep (s : State) : Result :=
  match s.phase with
  | .idle => .next s
  | .fill => fillStep s
  | .eval => .next (evalStep s)

/-- The host puts a command on the command port (10_state R33 (a), R35). -/
def State.present (s : State) (c : Command) (rest : List HostMove) : State :=
  { s with host := rest, bus := c }

/-- S1: the word on the port is decoded and its command performed; an illegal word is answered
ERR_ILLEGAL (10_state R35; 30_encoding R80). -/
def runCommand (run : Instr → State → Result) (s : State) : Result :=
  match decode s.bus.cmd with
  | .ok i => run i s
  | .error _ => .next (s.raise .illegal)

/-- One step. The host's next move happens if it is enabled: reset in every state, take while a
response waits, issue when the core is ready; a move that is not enabled waits and the core or the
engine makes its step (10_state R35; 70_reset R234, R235; log entry 4). -/
def stepWith (run : Instr → State → Result) (s : State) : Result :=
  match s.host with
  | .reset :: rest => .next (State.coreReset { s with host := rest })
  | .take :: rest => if s.rspv then .next (State.takeResponse { s with host := rest }) else coreStep s
  | .issue c :: rest => if s.ready then runCommand run (s.present c rest) else coreStep s
  | .pass :: rest => coreStep { s with host := rest }
  | [] => coreStep s

end Sys2Proof.Machine
end

