-- ==== Sys2Proof/Machine/Step.lean ====
section
/-! DEFINITION. One step of the machine (spec 10_state R35) and the placing of a command where the next step takes it. -/

namespace Sys2Proof.Machine

/-- One atomic step: the host's next move if it is enabled, else the core's or the engine's (R35). -/
def step (s : State) : Host.Outcome State Fault Refusal := stepWith exec s

/-- The machine has no memory to fetch from: a command runs when the host issues it (10_state R37).
The word stands as the host's next move, both operand buses 0, and the core is ready for it
(`PHASE = IDLE`, `RSPV = 0`, which S1 needs). Log entry 4. -/
def State.withFetchWord (s : State) (nbits w : Nat) : State :=
  { s with
    phase := .idle
    rspv := false
    host := .issue { cmd := BitVec.ofNat 32 (w % 2 ^ nbits), op0 := 0, op1 := 0 } :: s.host }

end Sys2Proof.Machine
end

