-- ==== Sys2Proof/Safety.lean ====
section
/-! DEFINITION. The terms the statements use: the invariants (spec 10_state R41), which steps are enabled (R35), the signed
reading of a pattern (00_scope R12), the engine's stream and the draws formed from it (20_memory R55, 41_adapter R120,
43_generator R169), illegal words (30_encoding R80) and the registers that are dead (93_implementation_defined U7). -/

namespace Sys2Proof.Machine

/-- `k` steps of the machine, stopping at the first fault or refusal. -/
def runFor (k : Nat) (s : State) : Result := Host.Core.run core k s

/-- The state of an outcome that is one. -/
def nextOf : Result → Option State
  | .next s => some s
  | .fault _ => none
  | .refused _ => none

/-- NEWGEN of a variant as a command (30_encoding R77). -/
def newgenOf (v : Variant) (mul : BitVec 2) (w sg chk : Bool) : Instr :=
  match v with
  | .nr => .newgenNR mul w sg chk
  | .ru => .newgenRU mul w sg chk
  | .lz => .newgenLZ mul w sg chk

/-- A W-bit pattern read as signed: `p` if `p < 2^(W-1)`, else `p - 2^W` (00_scope R12; log entry 12). -/
def sval (w : Width) (p : Word) : Int :=
  if p.toNat < 2 ^ (w.bits - 1) then (p.toNat : Int) else (p.toNat : Int) - 2 ^ w.bits

/-- A W-bit pattern read in the caller's domain (00_scope R12, 30_encoding R74). -/
def callerValue (w : Width) (sg : Bool) (p : Word) : Int := if sg then sval w p else (p.toNat : Int)

/-- The clauses (a) to (g) of R41, one field each. -/
structure State.ClausesR41 (s : State) : Prop where
  /-- (a) -/
  respIdle : s.rspv = true → s.phase = .idle
  /-- (b) -/
  fillCount : s.phase = .fill →
    1 ≤ s.cnt.val ∧ s.cnt.val ≤ 2 ∧ (s.cw.bits ≤ s.par.engw.bits → s.cnt.val = 1)
  /-- (c) -/
  distOfRange : s.gv = true → s.dist = addW s.cfgWidth (subW s.cfgWidth s.b s.a) 1 ∧ s.a ≤ s.b
  /-- (d) -/
  thresholdOfDist : s.thrv = true →
    s.gv = true ∧ s.dist ≠ 0 ∧ s.thr.toNat = 2 ^ s.cfgWidth.bits % s.dist.toNat
  /-- (e) -/
  reuseThreshold : s.gv = true → s.cfgVar = Variant.ru.code → s.dist ≠ 0 → s.thrv = true
  /-- (f) -/
  narrowRegisters : s.gv = true → s.cfg.getLsbD 8 = false →
    hi32 s.a = 0 ∧ hi32 s.b = 0 ∧ hi32 s.dist = 0 ∧ hi32 s.thr = 0
  /-- (g) -/
  cfgLegal : s.cfgMul ≠ 3 ∧ s.cfgVar ≠ 3 ∧ (s.cfgMul = 2 → s.par.hasWideMul = true)

/-- The invariant every step keeps: R41 and what its proof needs of the sequencer (10_state R28, R34;
43_generator R158). -/
structure State.Inv (s : State) : Prop extends s.ClausesR41 where
  /-- A complete draw needs no further word (41_adapter R123). -/
  evalCount : s.phase = .eval → s.cnt.val = 0
  /-- A NEXT in progress has a generator, and draws at its width (43_generator R158). -/
  nextBound : s.phase ≠ .idle → s.cur = .nextop → s.gv = true ∧ s.cw = s.cfgWidth
  /-- A draw of 32 bits stays in 32 bits (41_adapter R123). -/
  accNarrow : s.phase ≠ .idle → s.cw = .w32 → hi32 s.acc = 0
  /-- `CFG` holds nothing outside [9:4] (10_state R28). -/
  cfgBits : s.cfg &&& 0x3F0 = s.cfg

/-- The values 70_reset R230 and 10_state R40 state for the core after reset; the registers they leave
unspecified may hold anything. -/
structure State.AfterReset (s : State) : Prop where
  gv : s.gv = false
  thrv : s.thrv = false
  rspv : s.rspv = false
  cfg : s.cfg = 0
  phase : s.phase = .idle
  cnt : s.cnt = 0
  acc : s.acc = 0

/-- S1 is enabled (R35). -/
abbrev State.issueEnabled (s : State) : Prop := s.phase = .idle ∧ s.rspv = false
/-- S2 is enabled, if the engine answers (R35). -/
abbrev State.engineEnabled (s : State) : Prop := s.phase = .fill
/-- S3 is enabled (R35). -/
abbrev State.evalEnabled (s : State) : Prop := s.phase = .eval
/-- S4 is enabled (R35). -/
abbrev State.takeEnabled (s : State) : Prop := s.rspv = true

/-- The word at position `n` of the engine's stream, `E(n)`, for `n` not before `EPOS` (20_memory R55). -/
def State.engineWordAt (s : State) (n : Nat) : Word :=
  engData s.par.engw (s.engine.given.getD (n - s.engine.pos) (Config.engineWord n))

/-- The engine answers at least `n` more requests. -/
abbrev State.engineAnswers (s : State) (n : Nat) : Prop :=
  s.engine.live = true ∨ n ≤ s.engine.given.length

/-- The engine after `n` more words (20_memory R55). -/
def Engine.advance (e : Engine) (n : Nat) : Engine :=
  { e with given := e.given.drop n, pos := e.pos + n }

/-- `D(n)`: the W-bit draw formed from the engine words starting at position `n` (41_adapter R120,
43_generator R169). -/
def State.drawAt (s : State) (w : Width) (n : Nat) : Word :=
  match s.par.engw, w with
  | .w32, .w32 => s.engineWordAt n
  | .w64, .w64 => s.engineWordAt n
  | .w32, .w64 => digits (s.engineWordAt n) (s.engineWordAt (n + 1))
  | .w64, .w32 => lo32 (s.engineWordAt n)

/-- The state in which the adapter has just completed a W-bit draw from where the engine stands: the
words are consumed, `ACC` holds the draw. -/
def State.afterDraw (s : State) (w : Width) : State :=
  { s with
    cw := w
    acc := s.drawAt w s.engine.pos
    cnt := 0
    phase := .eval
    engine := s.engine.advance (wordsPerDraw s.par.engw w).val }

/-- The words R80 calls illegal, clause by clause, on the fields of R71. -/
def IllegalWord (c : CmdWord) : Prop :=
  let op := c.extractLsb' 0 4
  let mul := c.extractLsb' 4 2
  let var := c.extractLsb' 6 2
  let w := c.extractLsb' 8 1
  let sg := c.extractLsb' 9 1
  let chk := c.extractLsb' 10 1
  let reg := c.extractLsb' 11 4
  c.extractLsb' 15 17 ≠ 0
  ∨ (op = 0 ∨ 8 ≤ op)
  ∨ (op = 1 ∧ ¬(var = 0 ∧ w = 0 ∧ sg = 0 ∧ chk = 0 ∧ reg = 0)
    ∨ op = 2 ∧ ¬(mul = 0 ∧ var = 0 ∧ sg = 0 ∧ chk = 0 ∧ reg = 0)
    ∨ op = 3 ∧ ¬(mul = 0 ∧ var = 0 ∧ chk = 0 ∧ reg = 0)
    ∨ op = 4 ∧ ¬(mul = 0 ∧ var = 0 ∧ chk = 0 ∧ reg = 0)
    ∨ op = 5 ∧ ¬(reg = 0)
    ∨ op = 6 ∧ ¬(mul = 0 ∧ var = 0 ∧ w = 0 ∧ sg = 0 ∧ chk = 0 ∧ reg = 0)
    ∨ op = 7 ∧ ¬(mul = 0 ∧ var = 0 ∧ w = 0 ∧ sg = 0 ∧ chk = 0))
  ∨ ((op = 1 ∨ op = 5) ∧ mul = 3)
  ∨ (op = 5 ∧ var = 3)
  ∨ (op = 7 ∧ reg ∈ [6, 7, 11, 12, 13, 14, 15])

/-- The command names the intrinsic strategy (60_exceptions R204). -/
abbrev SelectsIntrinsic : Instr → Prop
  | .extmulS => False
  | .extmulO => False
  | .extmulI => True
  | .draw32 => False
  | .draw64 => False
  | .touns _ _ => False
  | .tosgn _ _ => False
  | .newgenNR mul _ _ _ => mul = 2
  | .newgenRU mul _ _ _ => mul = 2
  | .newgenLZ mul _ _ _ => mul = 2
  | .next => False
  | .rdreg _ => False

/-- The command is a NEWGEN with this `chk` whose bounds on the port have `low > high` in the caller's
domain (60_exceptions R203). -/
abbrev RangeViolated (chk : Bool) (c : Command) : Instr → Prop
  | .extmulS => False
  | .extmulO => False
  | .extmulI => False
  | .draw32 => False
  | .draw64 => False
  | .touns _ _ => False
  | .tosgn _ _ => False
  | .newgenNR _ w sg k => k = chk ∧
      callerValue (widthOf w) sg (low (widthOf w) c.op1) < callerValue (widthOf w) sg (low (widthOf w) c.op0)
  | .newgenRU _ w sg k => k = chk ∧
      callerValue (widthOf w) sg (low (widthOf w) c.op1) < callerValue (widthOf w) sg (low (widthOf w) c.op0)
  | .newgenLZ _ w sg k => k = chk ∧
      callerValue (widthOf w) sg (low (widthOf w) c.op1) < callerValue (widthOf w) sg (low (widthOf w) c.op0)
  | .next => False
  | .rdreg _ => False

/-- Two commands agree on the operand bits this instruction reads (30_encoding R75). -/
abbrev SameReadOperands (c c' : Command) : Instr → Prop
  | .extmulS => c.op0 = c'.op0 ∧ c.op1 = c'.op1
  | .extmulO => c.op0 = c'.op0 ∧ c.op1 = c'.op1
  | .extmulI => c.op0 = c'.op0 ∧ c.op1 = c'.op1
  | .draw32 => True
  | .draw64 => True
  | .touns w _ => low (widthOf w) c.op0 = low (widthOf w) c'.op0
  | .tosgn w _ => low (widthOf w) c.op0 = low (widthOf w) c'.op0
  | .newgenNR _ w _ _ => low (widthOf w) c.op0 = low (widthOf w) c'.op0 ∧
      low (widthOf w) c.op1 = low (widthOf w) c'.op1
  | .newgenRU _ w _ _ => low (widthOf w) c.op0 = low (widthOf w) c'.op0 ∧
      low (widthOf w) c.op1 = low (widthOf w) c'.op1
  | .newgenLZ _ w _ _ => low (widthOf w) c.op0 = low (widthOf w) c'.op0 ∧
      low (widthOf w) c.op1 = low (widthOf w) c'.op1
  | .next => True
  | .rdreg _ => True

/-- The state with its dead registers blanked: `RSP` while no response waits, the sequencer's working
registers while no command is in progress (U7, U8; log entry 9). Two states with the same live view
are the same machine. -/
def State.liveView (s : State) : State :=
  { s with
    rsp := if s.rspv then s.rsp else { err := .ok, res0 := 0, res1 := 0 }
    cur := if s.phase = .idle then .drawop else s.cur
    cw := if s.phase = .idle then .w32 else s.cw
    cnt := if s.phase = .idle then 0 else s.cnt
    acc := if s.phase = .idle then 0 else s.acc }

/-- Two outcomes show the same machine: next states with the same live view, or the same stop. -/
def SameLive : Result → Result → Prop
  | .next s, .next t => s.liveView = t.liveView
  | .fault f, .fault g => f = g
  | .refused r, .refused q => r = q
  | .next _, .fault _ => False
  | .next _, .refused _ => False
  | .fault _, .next _ => False
  | .fault _, .refused _ => False
  | .refused _, .next _ => False
  | .refused _, .fault _ => False

/-- `CFG` with another strategy in its MUL field (10_state R28). -/
def cfgWithMul (cfg : Word) (m : BitVec 2) : Word := (cfg &&& ~~~0x30#64) ||| (m.setWidth 64 <<< 4)

/-- The state after a command that ended in an error (60_exceptions R201): the response and nothing
else. -/
def State.failed (s : State) (e : ErrCode) : State :=
  { s with rsp := { err := e, res0 := 0, res1 := 0 }, rspv := true, phase := .idle }

end Sys2Proof.Machine
end

