-- ==== Sys2Proof/Certificates/Slice0/Obligations.lean ====
section
/-! DEFINITION. The statements about the Lemire core, one `def Obligations.<Name> : Prop` each. They quantify over every
state, hence over both parameters of the hardware, every engine word and every list of host moves. -/

open Sys2Proof Sys2Proof.Machine

/-! ## Reset and invariants -/

/-- R230: reset in any state leaves the values the spec states, and leaves the parameters and the
engine alone. (What it leaves in the registers the spec calls unspecified is the model's choice, log
entry 1, and is not stated.) -/
def Obligations.ResetStepLeavesSpecValues : Prop :=
  ∀ (s : State) (rest : List HostMove), s.host = .reset :: rest →
    ∃ t, step s = .next t ∧ t.AfterReset ∧ t.statusView = 0 ∧ t.capView = s.capView ∧ t.par = s.par ∧
      t.engine = s.engine ∧ t.host = rest

/-- Every state with the reset values of R40 meets the invariant, whatever its unspecified registers
hold, and the model's own reset states have those values. -/
def Obligations.StateAfterResetMeetsInvariant : Prop :=
  (∀ s : State, s.AfterReset → s.Inv) ∧
  (∀ par bus host engine, (State.resetCore par bus host engine).AfterReset) ∧ State.reset.AfterReset

/-- Every step keeps the invariant: the clauses of R41 and what the sequencer keeps. -/
def Obligations.StepKeepsInvariant : Prop :=
  ∀ s t : State, s.Inv → step s = .next t → t.Inv

/-- R41: its clauses hold in every state reachable from reset, by any host moves, engine words and
parameters. -/
def Obligations.ReachableStatesMeetR41 : Prop :=
  ∀ (s t : State) (k : Nat), s.AfterReset → runFor k s = .next t → t.ClausesR41

/-- From a state that meets the invariant no step faults, and a step refuses exactly a legal NEWGEN
with `chk = 0`, an available strategy and `low > high` (R157 (d), U1; log entry 7, DEDUCED). -/
def Obligations.StepStopsOnlyOnUncheckedRange : Prop :=
  ∀ s : State, s.Inv →
    (∀ f, step s ≠ .fault f) ∧
    ∀ r, step s = .refused r ↔ r = .uncheckedRange ∧ ∃ c rest i, s.host = .issue c :: rest ∧
      s.issueEnabled ∧ decode c.cmd = .ok i ∧ RangeViolated false c i ∧
      (SelectsIntrinsic i → s.par.hasWideMul = true)

/-! ## Encoding -/

/-- Decoding the word of a well-formed command gives the command back, for every value of every field. -/
def Obligations.DecodeOfEncodeGivesCommand : Prop :=
  ∀ i : Instr, WellFormed i → decode (encode i) = .ok i

/-- A word that decodes is the word of the command it decodes to, and that command is well-formed: no
two words mean one command, and no bit of a legal word is ignored. -/
def Obligations.EncodeOfDecodeGivesWord : Prop :=
  ∀ (c : CmdWord) (i : Instr), decode c = .ok i → WellFormed i ∧ encode i = c

/-- R77: each row of the opcode map, by its match, mask and side condition on the encoding. -/
def Obligations.OpcodeRowsSelectCommands : Prop :=
  ∀ c : CmdWord,
    (decode c = .ok .extmulS ↔ c &&& 0xFFFFFFFF = 0x00000001) ∧
    (decode c = .ok .extmulO ↔ c &&& 0xFFFFFFFF = 0x00000011) ∧
    (decode c = .ok .extmulI ↔ c &&& 0xFFFFFFFF = 0x00000021) ∧
    (decode c = .ok .draw32 ↔ c &&& 0xFFFFFFFF = 0x00000002) ∧
    (decode c = .ok .draw64 ↔ c &&& 0xFFFFFFFF = 0x00000102) ∧
    (decode c = .ok (.touns (c.getLsbD 8) (c.getLsbD 9)) ↔ c &&& 0xFFFFFCFF = 0x00000003) ∧
    (decode c = .ok (.tosgn (c.getLsbD 8) (c.getLsbD 9)) ↔ c &&& 0xFFFFFCFF = 0x00000004) ∧
    (decode c = .ok (.newgenNR (c.extractLsb' 4 2) (c.getLsbD 8) (c.getLsbD 9) (c.getLsbD 10)) ↔
      c &&& 0xFFFFF8CF = 0x00000005 ∧ c.extractLsb' 4 2 ≠ 3) ∧
    (decode c = .ok (.newgenRU (c.extractLsb' 4 2) (c.getLsbD 8) (c.getLsbD 9) (c.getLsbD 10)) ↔
      c &&& 0xFFFFF8CF = 0x00000045 ∧ c.extractLsb' 4 2 ≠ 3) ∧
    (decode c = .ok (.newgenLZ (c.extractLsb' 4 2) (c.getLsbD 8) (c.getLsbD 9) (c.getLsbD 10)) ↔
      c &&& 0xFFFFF8CF = 0x00000085 ∧ c.extractLsb' 4 2 ≠ 3) ∧
    (decode c = .ok .next ↔ c &&& 0xFFFFFFFF = 0x00000006) ∧
    (decode c = .ok (.rdreg (c.extractLsb' 11 4)) ↔ c &&& 0xFFFF87FF = 0x00000007 ∧
      (c.extractLsb' 11 4).toNat ∈ [0, 1, 2, 3, 4, 5, 8, 9, 10])

/-- Some words of the spec's examples and the commands they stand for (R84, R137, R155, R156, R190). -/
def Obligations.SampleWordsDecode : Prop :=
  decode 0x00000021 = .ok .extmulI ∧ decode 0x00000102 = .ok .draw64 ∧
  decode 0x00000203 = .ok (.touns false true) ∧ decode 0x00000304 = .ok (.tosgn true true) ∧
  decode 0x00000445 = .ok (.newgenRU 0 false false true) ∧
  decode 0x00000785 = .ok (.newgenLZ 0 true true true) ∧
  decode 0x00000006 = .ok .next ∧ decode 0x00005007 = .ok (.rdreg 10)

/-- A step that takes a command whose word decodes runs exactly that command, on the operands the host
presents with it, with the command removed from the host's moves (R35 S1, R61). -/
def Obligations.StepRunsDecodedCommand : Prop :=
  ∀ (s : State) (c : Command) (rest : List HostMove) (i : Instr),
    s.issueEnabled → s.host = .issue c :: rest → decode c.cmd = .ok i →
    step s = exec i { s with host := rest, bus := c }

/-! ## Errors -/

/-- R80: a word is answered ERR_ILLEGAL, with no other effect, exactly when a clause of R80 holds. -/
def Obligations.IllegalWordsAnsweredWithoutEffect : Prop :=
  (∀ (s : State) (c : Command) (rest : List HostMove), s.issueEnabled → s.host = .issue c :: rest →
    (IllegalWord c.cmd →
      step s = .next (State.failed { s with host := rest, bus := c } .illegal)) ∧
    (¬IllegalWord c.cmd → ∀ t, step s = .next t → t.rspv = true → t.rsp.err ≠ .illegal)) ∧
  IllegalWord 0x00000000 ∧ IllegalWord 0xFFFFFFFF

/-- R201: whenever a step gives an error response, the step took a command (S1) and wrote the
response, with zero results, and nothing else. -/
def Obligations.ErrorsWriteNothingElse : Prop :=
  ∀ s t : State, step s = .next t → s.rspv = false → t.rspv = true → t.rsp.err ≠ .ok →
    ∃ c rest, s.host = .issue c :: rest ∧ s.phase = .idle ∧
      t = State.failed { s with host := rest, bus := c } t.rsp.err

/-- R206: which error a command gets when several apply, and that it gets none when none applies. -/
def Obligations.ErrorPriorityOrder : Prop :=
  ∀ (s : State) (c : Command) (rest : List HostMove), s.issueEnabled → s.host = .issue c :: rest →
    (IllegalWord c.cmd →
      step s = .next (State.failed { s with host := rest, bus := c } .illegal)) ∧
    ∀ i, decode c.cmd = .ok i →
      (SelectsIntrinsic i → s.par.hasWideMul = false →
        step s = .next (State.failed { s with host := rest, bus := c } .cap)) ∧
      ((SelectsIntrinsic i → s.par.hasWideMul = true) → RangeViolated true c i →
        step s = .next (State.failed { s with host := rest, bus := c } .range)) ∧
      (i = .next → s.gv = false →
        step s = .next (State.failed { s with host := rest, bus := c } .nogen)) ∧
      ((SelectsIntrinsic i → s.par.hasWideMul = true) → ¬RangeViolated true c i →
        (i = .next → s.gv = true) → ∀ t, step s = .next t → t.rspv = true → t.rsp.err = .ok)

/-- R210: a command that ended in an error gives the same error again when it is reissued after its
response has been taken. -/
def Obligations.FailedCommandFailsAgain : Prop :=
  ∀ (i : Instr) (s t : State), s.rspv = false → exec i s = .next t → t.rspv = true → t.rsp.err ≠ .ok →
    ∃ t', exec i { t with rspv := false } = .next t' ∧ t'.rspv = true ∧ t'.rsp = t.rsp

/-- R204: ERR_CAP is raised exactly by the commands that select the intrinsic strategy, exactly where
the wide multiply is missing; and no generator with that strategy is bound there. -/
def Obligations.CapabilityErrorExactlyWhenUnsupported : Prop :=
  (∀ (i : Instr) (s : State),
    (SelectsIntrinsic i → s.par.hasWideMul = false → exec i s = .next (s.failed .cap)) ∧
    (∀ t, s.rspv = false → exec i s = .next t → t.rspv = true → t.rsp.err = .cap →
      SelectsIntrinsic i ∧ s.par.hasWideMul = false)) ∧
  (∀ (s t : State) (k : Nat), s.AfterReset → runFor k s = .next t → t.par.hasWideMul = false →
    t.cfgMul ≠ 2)

/-- R203: ERR_RANGE is raised exactly by NEWGEN with `chk = 1` and `low > high` in the caller's domain,
which is `to_unsigned(low) > to_unsigned(high)`. With `chk = 0` nothing is raised and the spec calls the
behaviour undefined; that it ends in the refusal `uncheckedRange` is the model's reading of R157 (d) and
U1 (log entry 7, DEDUCED), not a clause of R203. -/
def Obligations.RangeErrorExactlyWhenLowAboveHigh : Prop :=
  (∀ (i : Instr) (s : State), WellFormed i → (SelectsIntrinsic i → s.par.hasWideMul = true) →
    (RangeViolated true s.bus i → exec i s = .next (s.failed .range)) ∧
    (RangeViolated false s.bus i → exec i s = .refused .uncheckedRange)) ∧
  (∀ (i : Instr) (s t : State), s.rspv = false → exec i s = .next t → t.rspv = true →
    t.rsp.err = .range → RangeViolated true s.bus i) ∧
  (∀ (w : Width) (sg : Bool) (p q : Word),
    callerValue w sg (low w q) < callerValue w sg (low w p) ↔
      toUnsigned w sg (low w q) < toUnsigned w sg (low w p))

/-- R205: NEXT with `GV = 0` answers ERR_NOGEN and writes nothing else; reset leaves `GV = 0`. -/
def Obligations.NextWithoutGeneratorFails : Prop :=
  (∀ s : State, s.gv = false → exec .next s = .next (s.failed .nogen)) ∧
  (∀ s : State, s.AfterReset → exec .next s = .next (s.failed .nogen))

/-! ## Extended multiply -/

/-- R100: `extmul` is the exact product, and its halves are the remainder and the quotient by 2^64. -/
def Obligations.ExtmulIsExactProduct : Prop :=
  ∀ x y : Word,
    (extmul x y).upper.toNat * 2 ^ 64 + (extmul x y).lower.toNat = x.toNat * y.toNat ∧
    (extmul x y).lower.toNat = x.toNat * y.toNat % 2 ^ 64 ∧
    (extmul x y).upper.toNat = x.toNat * y.toNat / 2 ^ 64

/-- R110: the laws of the multiply, for `extmul` (which is `extmul_64`) and for `extmul_W`. -/
def Obligations.ExtmulLawsAtBothWidths : Prop :=
  extmulW .w64 = extmul ∧
  ∀ (w : Width) (x y : Word), x.toNat < 2 ^ w.bits → y.toNat < 2 ^ w.bits →
    (extmulW w x y).upper.toNat * 2 ^ w.bits + (extmulW w x y).lower.toNat = x.toNat * y.toNat ∧
    (extmulW w x y).lower.toNat < 2 ^ w.bits ∧
    extmulW w x 0 = { upper := 0, lower := 0 } ∧
    extmulW w 0 y = { upper := 0, lower := 0 } ∧
    extmulW w x 1 = { upper := 0, lower := x } ∧
    extmulW w x y = extmulW w y x ∧
    (extmulW w x y).upper.toNat ≤ 2 ^ w.bits - 2 ∧
    ((extmulW w x y).upper.toNat = 2 ^ w.bits - 2 ↔
      x.toNat = 2 ^ w.bits - 1 ∧ y.toNat = 2 ^ w.bits - 1) ∧
    (1 ≤ y.toNat → (extmulW w x y).upper.toNat < y.toNat) ∧
    ∀ k, k < w.bits → y.toNat = 2 ^ k →
      (extmulW w x y).upper.toNat = x.toNat >>> (w.bits - k) ∧
      (extmulW w x y).lower.toNat = (x.toNat <<< k) % 2 ^ w.bits

/-- R105: the three strategies give the same product for every pair, so that `mul` never changes what
EXTMUL does and `CFG.MUL` never changes what the evaluation of a NEXT does. -/
def Obligations.MultiplyStrategiesBitIdentical : Prop :=
  (∀ x y : Word, extmulSchoolbook x y = extmul x y ∧ extmulOptimized x y = extmul x y) ∧
  (∀ s : State, exec .extmulO s = exec .extmulS s ∧
    (s.par.hasWideMul = true → exec .extmulI s = exec .extmulS s)) ∧
  (∀ (s : State) (m : BitVec 2),
    evalNext { s with cfg := cfgWithMul s.cfg m } =
      { evalNext s with cfg := cfgWithMul s.cfg m })

/-- R106 to R109: each EXTMUL that is available completes in one step with the exact product in
`UPPER`, `LOWER` and on the response buses, and writes nothing else. -/
def Obligations.ExtmulCommandsStoreAndReturnProduct : Prop :=
  ∀ (i : Instr) (s : State),
    i = .extmulS ∨ i = .extmulO ∨ (i = .extmulI ∧ s.par.hasWideMul = true) →
    ∃ u l : Word, u.toNat * 2 ^ 64 + l.toNat = s.bus.op0.toNat * s.bus.op1.toNat ∧
      exec i s = .next { s with
        upper := u, lower := l, rsp := { err := .ok, res0 := l, res1 := u }, rspv := true, phase := .idle }

/-! ## Bit source adapter -/

/-- Step S1 of DRAW.32 and DRAW.64: the draw is started with the words it needs, nothing else is
written (R122, R126, R127). -/
def Obligations.DrawCommandsStartADraw : Prop :=
  ∀ s : State,
    exec .draw32 s = .next { s with cur := .drawop, cw := .w32, acc := 0, cnt := 1, phase := .fill } ∧
    exec .draw64 s = .next { s with
      cur := .drawop, cw := .w64, acc := 0, cnt := if s.par.engw = .w64 then 1 else 2, phase := .fill }

/-- Step S2: one word is folded into `ACC` and the engine advances by one; a silent engine changes
nothing (R123, R55, R241). -/
def Obligations.EngineStepFoldsOneWord : Prop :=
  ∀ s : State, s.phase = .fill →
    let e := s.engineWordAt s.engine.pos
    let x := if s.cw.bits ≤ s.par.engw.bits then e.toNat % 2 ^ s.cw.bits
      else (s.acc.toNat * 2 ^ s.par.engw.bits + e.toNat) % 2 ^ s.cw.bits
    (s.engineAnswers 1 → s.cnt = 1 →
      coreStep s = .next { s with
        acc := BitVec.ofNat 64 x, cnt := 0, phase := .eval, engine := s.engine.advance 1 }) ∧
    (s.engineAnswers 1 → s.cnt = 2 →
      coreStep s = .next { s with acc := BitVec.ofNat 64 x, cnt := 1, engine := s.engine.advance 1 }) ∧
    (¬s.engineAnswers 1 → coreStep s = .next s)

/-- R120, R121: a draw of width W from where the engine stands, by the three cases of the adapter, and
the engine advanced past exactly the words it took. -/
def Obligations.CompletedDrawFollowsAdapterCases : Prop :=
  ∀ (s : State) (w : Width), s.host = [] →
    s.engineAnswers (wordsPerDraw s.par.engw w).val →
    ∃ d : Word,
      (s.par.engw = w → d = s.engineWordAt s.engine.pos) ∧
      (s.par.engw = .w32 → w = .w64 →
        d.toNat = (s.engineWordAt s.engine.pos).toNat * 2 ^ 32 +
          (s.engineWordAt (s.engine.pos + 1)).toNat) ∧
      (s.par.engw = .w64 → w = .w32 → d.toNat = (s.engineWordAt s.engine.pos).toNat % 2 ^ 32) ∧
      d.toNat < 2 ^ w.bits ∧
      runFor (wordsPerDraw s.par.engw w).val (s.startDraw w) = .next { s with
        cw := w, acc := d, cnt := 0, phase := .eval,
        engine := s.engine.advance (if s.par.engw = .w32 ∧ w = .w64 then 2 else 1) }

/-- R126, R127 as a run: with an engine that answers, DRAW responds with the draw after one step per
word and one evaluation, and disturbs no register. -/
def Obligations.DrawCommandsReturnTheDraw : Prop :=
  ∀ (i : Instr) (w : Width) (s : State), (i = .draw32 ∧ w = .w32) ∨ (i = .draw64 ∧ w = .w64) →
    s.host = [] → s.engineAnswers (wordsPerDraw s.par.engw w).val →
    ∃ s₀, exec i s = .next s₀ ∧
      runFor ((wordsPerDraw s.par.engw w).val + 1) s₀ = .next { s with
        cur := .drawop, cw := w, cnt := 0, acc := s.drawAt w s.engine.pos,
        rsp := { err := .ok, res0 := s.drawAt w s.engine.pos, res1 := 0 }, rspv := true, phase := .idle,
        engine := s.engine.advance (wordsPerDraw s.par.engw w).val }

/-- R241: with a silent engine the core stays in FILL for ever, as it is; and reset still ends it. -/
def Obligations.SilentEngineLeavesCoreWaiting : Prop :=
  ∀ s : State, s.phase = .fill → ¬s.engineAnswers 1 →
    (s.host = [] → ∀ n, runFor n s = .next s) ∧
    (∀ n, runFor n { s with host := List.replicate n .pass } = .next { s with host := [] }) ∧
    (∀ n, ∃ t, runFor (n + 1) { s with host := List.replicate n .pass ++ [.reset] } = .next t ∧
      t.AfterReset ∧ t.engine = s.engine)

/-- The engine advances only by a step in FILL, by one word, in stream order, with no gap (R55, R58,
R125). -/
def Obligations.EngineAdvancesOnlyByEngineStep : Prop :=
  ∀ s t : State, step s = .next t →
    t.engine = s.engine ∨
    (s.phase = .fill ∧ s.engineAnswers 1 ∧ t.engine = s.engine.advance 1 ∧
      ∀ n, s.engine.pos < n → t.engineWordAt n = s.engineWordAt n)

/-! ## Ordering transposition -/

/-- R137, R138: TOUNS and TOSGN in every width and domain: the low W bits, the sign bit flipped in a
signed domain, zero-extended; nothing else is written; and their words. -/
def Obligations.TranspositionCommandsReturnImage : Prop :=
  ∀ (i : Instr) (w sg : Bool) (s : State), i = .touns w sg ∨ i = .tosgn w sg →
    (∃ v : Word,
      v.toNat = (if sg then (s.bus.op0.toNat % 2 ^ (if w then 64 else 32)) ^^^ 2 ^ (if w then 63 else 31)
        else s.bus.op0.toNat % 2 ^ (if w then 64 else 32)) ∧
      exec i s = .next { s with rsp := { err := .ok, res0 := v, res1 := 0 }, rspv := true, phase := .idle }) ∧
    (encode (.touns w sg)).toNat = 3 + w.toNat * 2 ^ 8 + sg.toNat * 2 ^ 9 ∧
    (encode (.tosgn w sg)).toNat = 4 + w.toNat * 2 ^ 8 + sg.toNat * 2 ^ 9

/-- R136: `to_signed` is the inverse of `to_unsigned`, on both sides, and the same function of the
pattern; patterns of W bits stay so. -/
def Obligations.TranspositionsAreInverse : Prop :=
  ∀ (w : Width) (sg : Bool) (v : Word),
    toSigned w sg (toUnsigned w sg v) = v ∧ toUnsigned w sg (toSigned w sg v) = v ∧
    toSigned w sg v = toUnsigned w sg v ∧
    (v.toNat < 2 ^ w.bits → (toUnsigned w sg v).toNat < 2 ^ w.bits)

/-- R139: in a signed domain the unsigned image is the signed value moved up by 2^(W-1), so unsigned
order of images is signed order of patterns; and the four corner images. -/
def Obligations.TranspositionPreservesOrder : Prop :=
  ∀ (w : Width),
    (∀ p : Word, p.toNat < 2 ^ w.bits →
      ((toUnsigned w true p).toNat : Int) = sval w p + 2 ^ (w.bits - 1)) ∧
    (∀ p q : Word, p.toNat < 2 ^ w.bits → q.toNat < 2 ^ w.bits →
      (sval w p ≤ sval w q ↔ toUnsigned w true p ≤ toUnsigned w true q)) ∧
    (toUnsigned w true (sbit w)).toNat = 0 ∧ sval w (sbit w) = -2 ^ (w.bits - 1) ∧
    (toUnsigned w true (BitVec.ofNat 64 (2 ^ w.bits - 1))).toNat = 2 ^ (w.bits - 1) - 1 ∧
    sval w (BitVec.ofNat 64 (2 ^ w.bits - 1)) = -1 ∧
    (toUnsigned w true 0).toNat = 2 ^ (w.bits - 1) ∧ sval w 0 = 0 ∧
    (toUnsigned w true (BitVec.ofNat 64 (2 ^ (w.bits - 1) - 1))).toNat = 2 ^ w.bits - 1 ∧
    sval w (BitVec.ofNat 64 (2 ^ (w.bits - 1) - 1)) = 2 ^ (w.bits - 1) - 1

/-- R140: an offset added to the unsigned image is the offset added to the pattern, so that the sample
has the bit pattern of the lower bound plus the offset, in either domain. -/
def Obligations.SignedImageOffsetIsWrappingSum : Prop :=
  ∀ (w : Width) (sg : Bool) (p k : Word), p.toNat < 2 ^ w.bits →
    toSigned w sg (addW w (toUnsigned w sg p) k) = addW w p k

/-! ## Bounded generator -/

/-- R152: what a NEWGEN whose checks pass writes, in every variant, and that it writes nothing else. -/
def Obligations.NewgenBindsGenerator : Prop :=
  ∀ (v : Variant) (mul : BitVec 2) (w sg chk : Bool) (s : State),
    mul ≠ 3 → (mul = 2 → s.par.hasWideMul = true) →
    callerValue (widthOf w) sg (low (widthOf w) s.bus.op0) ≤
      callerValue (widthOf w) sg (low (widthOf w) s.bus.op1) →
    let ua := toUnsigned (widthOf w) sg (low (widthOf w) s.bus.op0)
    let ub := toUnsigned (widthOf w) sg (low (widthOf w) s.bus.op1)
    ∃ (d thr : Word) (thrv : Bool),
      ua ≤ ub ∧ d.toNat = (ub.toNat - ua.toNat + 1) % 2 ^ (widthOf w).bits ∧
      (if v = .ru ∧ d ≠ 0 then thr.toNat = 2 ^ (widthOf w).bits % d.toNat ∧ thrv = true
        else thr = 0 ∧ thrv = false) ∧
      exec (newgenOf v mul w sg chk) s = .next { s with
        a := ua, b := ub, dist := d, thr := thr, thrv := thrv, gv := true,
        cfg := (encode (newgenOf v mul w sg chk) &&& 0x3F0).setWidth 64,
        rsp := { err := .ok, res0 := 0, res1 := 0 }, rspv := true, phase := .idle }

/-- R153: the threshold function, its three forms, its bounds, where it is zero, and the values the
rule lists. -/
def Obligations.ThresholdFunctionFacts : Prop :=
  (∀ (w : Width) (d : Word), 1 ≤ d.toNat → d.toNat < 2 ^ w.bits →
    thrW w d = negW w d % d ∧
    (thrW w d).toNat = (2 ^ w.bits - d.toNat) % d.toNat ∧
    (thrW w d).toNat = 2 ^ w.bits % d.toNat ∧
    (thrW w d).toNat < d.toNat ∧
    (thrW w d).toNat ≤ 2 ^ w.bits - d.toNat ∧
    (thrW w d).toNat < 2 ^ (w.bits - 1) ∧
    ((thrW w d).toNat = 0 ↔ ∃ j, d.toNat = 2 ^ j) ∧
    (d.toNat = 2 ^ w.bits - 1 → (thrW w d).toNat = 1)) ∧
  thrW .w32 16 = 0 ∧ thrW .w32 3 = 1 ∧ thrW .w32 6 = 4 ∧ thrW .w32 7 = 4 ∧ thrW .w32 10 = 6 ∧
  thrW .w32 0x80000001 = 0x7FFFFFFF ∧ thrW .w32 0xFFFFFFFF = 1 ∧ thrW .w64 3 = 1 ∧ thrW .w64 6 = 4 ∧
  thrW .w64 9 = 7 ∧ thrW .w64 10 = 6 ∧ thrW .w64 0x8000000000000001 = 0x7FFFFFFFFFFFFFFF ∧
  thrW .w64 0xFFFFFFFFFFFFFFFF = 1

/-- Step S1 of NEXT with a generator bound: the no-reuse recomputation, where the variant asks for it,
and the start of a draw of the generator's width (R158, R160); nothing else is written. -/
def Obligations.NextStartsDrawAndRefreshesNoReuse : Prop :=
  ∀ s : State, s.gv = true →
    exec .next s = .next { s with
      dist := if s.cfgVar = 0 then addW s.cfgWidth (subW s.cfgWidth s.b s.a) 1 else s.dist
      thrv := if s.cfgVar = 0 then false else s.thrv
      cur := .nextop
      cw := s.cfgWidth
      acc := 0
      cnt := if s.par.engw = .w32 ∧ s.cfgWidth = .w64 then 2 else 1
      phase := .fill }

/-- R162: a completed draw of a NEXT on the whole domain is returned unscaled, with its top bit
flipped in a signed domain, and nothing but the response is written. -/
def Obligations.FullWidthNextReturnsDraw : Prop :=
  ∀ s : State, s.phase = .eval → s.cur = .nextop → s.dist = 0 →
    ∃ v : Word,
      v.toNat = (if s.cfgSigned then (s.acc.toNat % 2 ^ s.cfgWidth.bits) ^^^ 2 ^ (s.cfgWidth.bits - 1)
        else s.acc.toNat % 2 ^ s.cfgWidth.bits) ∧
      coreStep s = .next { s with
        rsp := { err := .ok, res0 := v, res1 := 0 }, rspv := true, phase := .idle }

/-- R163, R164 (with R165, R166): what the evaluation of a completed draw does when the distance is
not the whole domain: scale, then fast accept, or compare with the threshold, computing it if it is
not known, and accept or start a fresh draw. Accepted offsets do not pass the upper bound. -/
def Obligations.NextScalesAndDecidesOnDraw : Prop :=
  ∀ s : State, s.Inv → s.phase = .eval → s.cur = .nextop → s.dist ≠ 0 →
    let N := 2 ^ s.cfgWidth.bits
    let d := s.dist.toNat
    let u := s.acc.toNat * d / N
    let l := s.acc.toNat * d % N
    let T := if s.thrv then s.thr.toNat else N % d
    let sample := toSigned s.cfgWidth s.cfgSigned (addW s.cfgWidth s.a (BitVec.ofNat 64 u))
    u < d ∧ s.a.toNat + u ≤ s.b.toNat ∧ (s.thrv = true → d ≤ l → T ≤ l) ∧
    (s.thrv = false → d ≤ l → coreStep s = .next { s with
      upper := BitVec.ofNat 64 u, lower := BitVec.ofNat 64 l,
      rsp := { err := .ok, res0 := sample, res1 := 0 }, rspv := true, phase := .idle }) ∧
    (s.thrv = true ∨ l < d → T ≤ l → coreStep s = .next { s with
      upper := BitVec.ofNat 64 u, lower := BitVec.ofNat 64 l, thr := BitVec.ofNat 64 T, thrv := true,
      rsp := { err := .ok, res0 := sample, res1 := 0 }, rspv := true, phase := .idle }) ∧
    (s.thrv = true ∨ l < d → l < T → coreStep s = .next { s with
      upper := BitVec.ofNat 64 u, lower := BitVec.ofNat 64 l, thr := BitVec.ofNat 64 T, thrv := true,
      cw := s.cfgWidth, acc := 0, cnt := wordsPerDraw s.par.engw s.cfgWidth, phase := .fill })

/-- R169: the small steps of a NEXT meet its big-step summary. With an engine that answers, the command
responds after as many steps as its draws take, having rejected exactly the draws whose scaled lower
half is below the threshold, and leaves exactly the state the summary gives. -/
def Obligations.NextMeetsBigStepSummary : Prop :=
  ∀ (s : State) (j : Nat), s.Inv → s.issueEnabled → s.gv = true → s.host = [] →
    let W := s.cfgWidth
    let N := 2 ^ W.bits
    let d := s.dist.toNat
    let k := (wordsPerDraw s.par.engw W).val
    let draw := fun i => (s.drawAt W (s.engine.pos + i * k)).toNat
    let known := !(s.cfgVar = 0) && s.thrv
    let u := draw j * d / N
    let l := draw j * d % N
    let fast := !known && decide (j = 0) && decide (d ≤ l)
    ∃ s₀, exec .next s = .next s₀ ∧
      (d = 0 → s.engineAnswers k →
        runFor (k + 1) s₀ = .next { s with
          thrv := known, cur := .nextop, cw := W, cnt := 0, acc := BitVec.ofNat 64 (draw 0),
          rsp := { err := .ok, res0 := toSigned W s.cfgSigned (BitVec.ofNat 64 (draw 0)), res1 := 0 },
          rspv := true, phase := .idle, engine := s.engine.advance k }) ∧
      (d ≠ 0 → s.engineAnswers ((j + 1) * k) → (∀ i, i < j → draw i * d % N < N % d) → N % d ≤ l →
        runFor ((j + 1) * (k + 1)) s₀ = .next { s with
          upper := BitVec.ofNat 64 u, lower := BitVec.ofNat 64 l,
          thr := if known || fast then s.thr else BitVec.ofNat 64 (N % d), thrv := !fast,
          cur := .nextop, cw := W, cnt := 0, acc := BitVec.ofNat 64 (draw j),
          rsp := { err := .ok, res0 := toSigned W s.cfgSigned (addW W s.a (BitVec.ofNat 64 u)), res1 := 0 },
          rspv := true, phase := .idle, engine := s.engine.advance ((j + 1) * k) })

/-- R175, R242: as long as every draw is rejected NEXT does not respond, for however many draws: there
is no iteration limit. -/
def Obligations.NextKeepsDrawingWhileRejected : Prop :=
  ∀ (s : State) (n : Nat), s.Inv → s.issueEnabled → s.gv = true → s.host = [] → s.dist ≠ 0 →
    let W := s.cfgWidth
    let k := (wordsPerDraw s.par.engw W).val
    s.engineAnswers (n * k) →
    (∀ i, i < n → (s.drawAt W (s.engine.pos + i * k)).toNat * s.dist.toNat % 2 ^ W.bits <
      2 ^ W.bits % s.dist.toNat) →
    ∃ s₀, exec .next s = .next s₀ ∧
      ∀ m, m ≤ n * (k + 1) → ∃ t, runFor m s₀ = .next t ∧ t.rspv = false ∧ t.phase ≠ .idle

/-- The exact count behind unbiasedness (R168): of all W-bit draws exactly `thr_W(d)` are rejected, and
each offset below `d` is reached by the same number of accepted draws, `floor(2^W / d)`. -/
def Obligations.RejectionCountsMakeOffsetsEqual : Prop :=
  ∀ (w : Width) (d : Word), 1 ≤ d.toNat → d.toNat < 2 ^ w.bits →
    ((Finset.range (2 ^ w.bits)).filter fun r =>
      (extmulW w (BitVec.ofNat 64 r) d).lower < thrW w d).card = (thrW w d).toNat ∧
    ∀ u, u < d.toNat →
      ((Finset.range (2 ^ w.bits)).filter fun r =>
        thrW w d ≤ (extmulW w (BitVec.ofNat 64 r) d).lower ∧
        (extmulW w (BitVec.ofNat 64 r) d).upper.toNat = u).card = 2 ^ w.bits / d.toNat

/-- R174: every sample lies between the bounds in the caller's domain; a range of one value always
gives it with the first draw; an unsigned whole domain gives the draw; a power-of-two distance never
rejects. -/
def Obligations.SamplesStayInRangeAndCornerRanges : Prop :=
  ∀ s : State, s.Inv → s.phase = .eval → s.cur = .nextop →
    (∀ t, coreStep s = .next t → t.rspv = true →
      t.rsp.err = .ok ∧ t.rsp.res1 = 0 ∧
      callerValue s.cfgWidth s.cfgSigned (toSigned s.cfgWidth s.cfgSigned s.a) ≤
        callerValue s.cfgWidth s.cfgSigned t.rsp.res0 ∧
      callerValue s.cfgWidth s.cfgSigned t.rsp.res0 ≤
        callerValue s.cfgWidth s.cfgSigned (toSigned s.cfgWidth s.cfgSigned s.b)) ∧
    (s.a = s.b → ∃ t, coreStep s = .next t ∧ t.rspv = true ∧
      t.rsp.res0 = toSigned s.cfgWidth s.cfgSigned s.a) ∧
    (s.dist = 0 → s.cfgSigned = false → ∃ t, coreStep s = .next t ∧ t.rspv = true ∧
      t.rsp.res0 = s.acc) ∧
    (∀ j, s.dist.toNat = 2 ^ j → ∃ t, coreStep s = .next t ∧ t.rspv = true)

/-- R173: two generators bound by the same bounds, width and domain but any variants and available
strategies, on one engine stream: for every sequence of NEXT commands and at every point of it, the
machines differ in `CFG`, `THR` and `THRV` alone, so they give equal samples and products at equal
engine positions. -/
def Obligations.VariantsAndStrategiesGiveSameSamples : Prop :=
  ∀ (s t₁ t₂ u₁ : State) (v₁ v₂ : Variant) (m₁ m₂ : BitVec 2) (w sg c₁ c₂ : Bool)
    (moves : List HostMove) (k : Nat),
    s.Inv → s.issueEnabled →
    exec (newgenOf v₁ m₁ w sg c₁) s = .next t₁ → t₁.rsp.err = .ok →
    exec (newgenOf v₂ m₂ w sg c₂) s = .next t₂ → t₂.rsp.err = .ok →
    (∀ h ∈ moves, h = .take ∨ h = .pass ∨ ∃ x y, h = .issue { cmd := 0x00000006, op0 := x, op1 := y }) →
    runFor k { t₁ with host := moves } = .next u₁ →
    ∃ u₂, runFor k { t₂ with host := moves } = .next u₂ ∧
      { u₂ with cfg := u₁.cfg, thr := u₁.thr, thrv := u₁.thrv } = u₁

/-! ## Register read-out -/

/-- R23: RDREG of each number that names a register responds with that register and writes nothing
else; of any other number it is an illegal command. -/
def Obligations.RdregReturnsNamedRegister : Prop :=
  ∀ s : State,
    (∀ (n : BitVec 4) (v : Word),
      (n = 0 ∧ v = s.a) ∨ (n = 1 ∧ v = s.b) ∨ (n = 2 ∧ v = s.dist) ∨ (n = 3 ∧ v = s.thr) ∨
      (n = 4 ∧ v = s.upper) ∨ (n = 5 ∧ v = s.lower) ∨ (n = 8 ∧ v = s.cfg &&& 0x3F0) ∨
      (n = 9 ∧ v.toNat = s.gv.toNat + 2 * s.thrv.toNat) ∨
      (n = 10 ∧ v.toNat = s.par.hasWideMul.toNat + 2 * (decide (s.par.engw = .w64)).toNat) →
      exec (.rdreg n) s = .next { s with
        rsp := { err := .ok, res0 := v, res1 := 0 }, rspv := true, phase := .idle }) ∧
    (∀ n : BitVec 4, n.toNat ∈ [6, 7, 11, 12, 13, 14, 15] →
      exec (.rdreg n) s = .next (s.failed .illegal) ∧ IllegalWord (encode (.rdreg n)))

/-- R30: the bits of `CAP`, and that no step, reset included, changes them. -/
def Obligations.CapViewShowsParametersForLife : Prop :=
  (∀ s : State, s.capView.getLsbD 0 = s.par.hasWideMul ∧
    s.capView.getLsbD 1 = decide (s.par.engw = .w64) ∧ ∀ j, 2 ≤ j → s.capView.getLsbD j = false) ∧
  (∀ s t : State, step s = .next t → t.capView = s.capView ∧ t.par = s.par)

/-! ## The machine as a whole -/

/-- R24: `GV` is set only by a NEWGEN that succeeds, by every one that does, and cleared only by reset. -/
def Obligations.GeneratorValidOnlyBoundByNewgen : Prop :=
  ∀ s t : State, step s = .next t →
    (s.gv = true → t.gv = false → ∃ rest, s.host = .reset :: rest) ∧
    (s.gv = false → t.gv = true → ∃ c rest v mul w sg chk, s.host = .issue c :: rest ∧
      s.issueEnabled ∧ decode c.cmd = .ok (newgenOf v mul w sg chk) ∧ t.rsp.err = .ok) ∧
    (∀ c rest v mul w sg chk, s.host = .issue c :: rest → s.issueEnabled →
      decode c.cmd = .ok (newgenOf v mul w sg chk) → t.rsp.err = .ok → t.gv = true) ∧
    t.statusView.getLsbD 0 = t.gv

/-- R26: `RSPV` is set only by `respond`, when a command is taken or a draw evaluated; it stays set until the host takes the response or resets the
core; while it is set no command is accepted; taking it clears it and changes nothing else. -/
def Obligations.ResponseValidUntilTaken : Prop :=
  (∀ s t : State, step s = .next t → s.rspv = false → t.rspv = true →
    t.phase = .idle ∧
    ((∃ c rest, s.host = .issue c :: rest ∧ s.issueEnabled) ∨ s.evalEnabled) ∧
    ∃ (u : State) (e : ErrCode) (r0 r1 : Word), u.rspv = false ∧ t = u.respond e r0 r1) ∧
  ∀ s : State, s.Inv → s.rspv = true →
    (∀ t, step s = .next t → t.rspv = false →
      ∃ rest, s.host = .take :: rest ∨ s.host = .reset :: rest) ∧
    (∀ rest, s.host = .take :: rest → step s = .next { s with host := rest, rspv := false }) ∧
    (∀ c rest, s.host = .issue c :: rest → step s = .next s) ∧
    (∀ rest, s.host = .reset :: rest → ∃ t, step s = .next t ∧ t.rspv = false)

/-- R35: in a state that meets the invariant at most one of the steps S1 to S4 is enabled. -/
def Obligations.AtMostOneAgentEnabled : Prop :=
  ∀ s : State, s.Inv →
    ¬(s.issueEnabled ∧ s.engineEnabled) ∧ ¬(s.issueEnabled ∧ s.evalEnabled) ∧
    ¬(s.issueEnabled ∧ s.takeEnabled) ∧ ¬(s.engineEnabled ∧ s.evalEnabled) ∧
    ¬(s.engineEnabled ∧ s.takeEnabled) ∧ ¬(s.evalEnabled ∧ s.takeEnabled)

/-- Who writes which register (R22, R25, R191): a step that changes it is a reset, or one of the
commands and evaluations listed for it. -/
def Obligations.DataRegistersWrittenOnlyByTheirWriters : Prop :=
  ∀ s t : State, step s = .next t →
    let resets := ∃ rest, s.host = .reset :: rest
    let issues := fun i => ∃ c rest, s.host = .issue c :: rest ∧ s.issueEnabled ∧ decode c.cmd = .ok i
    let binds := ∃ v mul w sg chk, issues (newgenOf v mul w sg chk)
    let evaluates := s.phase = .eval ∧ s.cur = .nextop
    (t.a ≠ s.a ∨ t.b ≠ s.b ∨ t.cfg ≠ s.cfg → resets ∨ binds) ∧
    (t.dist ≠ s.dist → resets ∨ binds ∨ issues .next) ∧
    (t.thr ≠ s.thr → resets ∨ binds ∨ evaluates) ∧
    (t.thrv ≠ s.thrv → resets ∨ binds ∨ issues .next ∨ evaluates) ∧
    (t.upper ≠ s.upper ∨ t.lower ≠ s.lower →
      resets ∨ issues .extmulS ∨ issues .extmulO ∨ issues .extmulI ∨ evaluates)

/-- Operand bits a command does not read have no effect on anything but the port itself (R75, U9). -/
def Obligations.UnreadOperandBitsHaveNoEffect : Prop :=
  ∀ (i : Instr) (s : State) (c c' : Command), SameReadOperands c c' i →
    (∀ t, exec i { s with bus := c } = .next t → exec i { s with bus := c' } = .next { t with bus := c' }) ∧
    (∀ r, exec i { s with bus := c } = .refused r → exec i { s with bus := c' } = .refused r)

/-- Dead registers never matter (R32, R34, U7): two states that differ only in them step to states that
differ only in them, or stop alike. -/
def Obligations.DeadRegistersHaveNoEffect : Prop :=
  ∀ s t : State, s.liveView = t.liveView → SameLive (step s) (step t)
end

