-- ==== Sys2Proof/Laws/Arith.lean ====
section
/-! SUPPORT. What the word-level helpers compute, as natural numbers: one lemma per helper. -/

namespace Sys2Proof.Machine

@[simp] theorem widthOf_true : widthOf true = .w64 := rfl
@[simp] theorem widthOf_false : widthOf false = .w32 := rfl

@[simp] theorem low_w64 (v : Word) : low .w64 v = v := rfl

/-- `low` keeps the value modulo `2^W`. -/
theorem low_toNat (w : Width) (v : Word) : (low w v).toNat = v.toNat % 2 ^ w.bits := by
  cases w
  · simp only [low, BitVec.toNat_setWidth, Width.bits_w32]
    omega
  · simp only [low, Width.bits_w64]
    exact (Nat.mod_eq_of_lt v.isLt).symm

theorem low_lt (w : Width) (v : Word) : (low w v).toNat < 2 ^ w.bits := by
  rw [low_toNat]
  exact Nat.mod_lt _ (Nat.two_pow_pos _)

/-- A value that fits in W bits is read back as itself. -/
theorem low_of_lt {w : Width} {v : Word} (h : v.toNat < 2 ^ w.bits) : low w v = v :=
  BitVec.eq_of_toNat_eq (by rw [low_toNat, Nat.mod_eq_of_lt h])

@[simp] theorem low_low (w : Width) (v : Word) : low w (low w v) = low w v := low_of_lt (low_lt w v)

@[simp] theorem low_zero (w : Width) : low w 0 = 0 := by cases w <;> rfl

theorem two_pow_bits_dvd (w : Width) : 2 ^ w.bits ∣ 2 ^ 64 := by cases w <;> decide

theorem addW_toNat (w : Width) (x y : Word) : (addW w x y).toNat = (x.toNat + y.toNat) % 2 ^ w.bits := by
  rw [addW, low_toNat, BitVec.toNat_add, Nat.mod_mod_of_dvd _ (two_pow_bits_dvd w)]

theorem subW_toNat (w : Width) (x y : Word) :
    (subW w x y).toNat = (2 ^ 64 - y.toNat + x.toNat) % 2 ^ w.bits := by
  rw [subW, low_toNat, BitVec.toNat_sub, Nat.mod_mod_of_dvd _ (two_pow_bits_dvd w)]

theorem negW_toNat (w : Width) (x : Word) : (negW w x).toNat = (2 ^ 64 - x.toNat) % 2 ^ w.bits := by
  rw [negW, low_toNat, BitVec.toNat_neg, Nat.mod_mod_of_dvd _ (two_pow_bits_dvd w)]

@[simp] theorem low_addW (w : Width) (x y : Word) : low w (addW w x y) = addW w x y := low_low _ _
@[simp] theorem low_subW (w : Width) (x y : Word) : low w (subW w x y) = subW w x y := low_low _ _

theorem sbit_toNat (w : Width) : (sbit w).toNat = 2 ^ (w.bits - 1) := by cases w <;> rfl

theorem lo32_toNat (v : Word) : (lo32 v).toNat = v.toNat % 2 ^ 32 := by
  rw [lo32, BitVec.toNat_and]
  exact Nat.and_two_pow_sub_one_eq_mod v.toNat 32

theorem hi32_toNat (v : Word) : (hi32 v).toNat = v.toNat / 2 ^ 32 := by
  rw [hi32, BitVec.toNat_ushiftRight, Nat.shiftRight_eq_div_pow]

/-- The upper half is empty exactly when the value fits in 32 bits. -/
theorem hi32_eq_zero_iff (v : Word) : hi32 v = 0 ↔ v.toNat < 2 ^ 32 := by
  have h := hi32_toNat v
  constructor
  · intro h0
    rw [h0] at h
    simp at h
    omega
  · intro hlt
    apply BitVec.eq_of_toNat_eq
    rw [h, Nat.div_eq_of_lt hlt]
    rfl

theorem lo32_eq_low (v : Word) : lo32 v = low .w32 v :=
  BitVec.eq_of_toNat_eq (by rw [lo32_toNat, low_toNat]; rfl)

/-- Two 32-bit digits side by side (R11). -/
theorem digits_toNat (hi lo : Word) (h : hi.toNat < 2 ^ 32) (l : lo.toNat < 2 ^ 32) :
    (digits hi lo).toNat = hi.toNat * 2 ^ 32 + lo.toNat := by
  rw [digits, BitVec.toNat_or, BitVec.toNat_shiftLeft, Nat.mod_eq_of_lt (by rw [Nat.shiftLeft_eq]; omega),
    ← Nat.shiftLeft_add_eq_or_of_lt l, Nat.shiftLeft_eq]

@[simp] theorem toUnsigned_unsigned (w : Width) (v : Word) : toUnsigned w false v = v := rfl
@[simp] theorem toSigned_unsigned (w : Width) (v : Word) : toSigned w false v = v := rfl
@[simp] theorem toUnsigned_signed (w : Width) (v : Word) : toUnsigned w true v = v ^^^ sbit w := rfl
@[simp] theorem toSigned_signed (w : Width) (v : Word) : toSigned w true v = v ^^^ sbit w := rfl

/-! The fields of the configuration word NEWGEN writes (10_state R28). -/

@[simp] theorem cfgWord_w (mul : BitVec 2) (v : Variant) (w sg : Bool) :
    (cfgWord mul v w sg).getLsbD 8 = w := by
  cases v <;> revert mul w sg <;> decide
@[simp] theorem cfgWord_sg (mul : BitVec 2) (v : Variant) (w sg : Bool) :
    (cfgWord mul v w sg).getLsbD 9 = sg := by
  cases v <;> revert mul w sg <;> decide
@[simp] theorem cfgWord_getElem_w (mul : BitVec 2) (v : Variant) (w sg : Bool) :
    (cfgWord mul v w sg)[8] = w := cfgWord_w mul v w sg
@[simp] theorem cfgWord_getElem_sg (mul : BitVec 2) (v : Variant) (w sg : Bool) :
    (cfgWord mul v w sg)[9] = sg := cfgWord_sg mul v w sg
@[simp] theorem cfgWord_mul (mul : BitVec 2) (v : Variant) (w sg : Bool) :
    (cfgWord mul v w sg).extractLsb' 4 2 = mul := by
  cases v <;> revert mul w sg <;> decide
@[simp] theorem cfgWord_var (mul : BitVec 2) (v : Variant) (w sg : Bool) :
    (cfgWord mul v w sg).extractLsb' 6 2 = v.code := by
  cases v <;> revert mul w sg <;> decide
@[simp] theorem cfgWord_bits (mul : BitVec 2) (v : Variant) (w sg : Bool) :
    cfgWord mul v w sg &&& 0x3F0 = cfgWord mul v w sg := by
  cases v <;> revert mul w sg <;> decide

/-! The same fields read from the state NEWGEN leaves. -/

@[simp] theorem bindGenerator_cfgWidth (v : Variant) (mul : BitVec 2) (w sg : Bool) (ua ub : Word) (s : State) :
    (bindGenerator v mul w sg ua ub s).cfgWidth = widthOf w := congrArg widthOf (cfgWord_w mul v w sg)
@[simp] theorem bindGenerator_cfgSigned (v : Variant) (mul : BitVec 2) (w sg : Bool) (ua ub : Word) (s : State) :
    (bindGenerator v mul w sg ua ub s).cfgSigned = sg := cfgWord_sg mul v w sg
@[simp] theorem bindGenerator_cfgVar (v : Variant) (mul : BitVec 2) (w sg : Bool) (ua ub : Word) (s : State) :
    (bindGenerator v mul w sg ua ub s).cfgVar = v.code := cfgWord_var mul v w sg
@[simp] theorem bindGenerator_cfgMul (v : Variant) (mul : BitVec 2) (w sg : Bool) (ua ub : Word) (s : State) :
    (bindGenerator v mul w sg ua ub s).cfgMul = mul := cfgWord_mul mul v w sg

end Sys2Proof.Machine
end

