-- ==== Sys2Proof/Laws/State.lean ====
section
/-! SUPPORT. One lemma per field per update of the state: what each shared operation leaves in each field. -/

namespace Sys2Proof.Machine
/-! `State.respond` -/
@[simp] theorem State.respond_a (s : State) (e : ErrCode) (r0 r1 : Word) : (s.respond e r0 r1).a = s.a := rfl
@[simp] theorem State.respond_b (s : State) (e : ErrCode) (r0 r1 : Word) : (s.respond e r0 r1).b = s.b := rfl
@[simp] theorem State.respond_dist (s : State) (e : ErrCode) (r0 r1 : Word) : (s.respond e r0 r1).dist = s.dist := rfl
@[simp] theorem State.respond_thr (s : State) (e : ErrCode) (r0 r1 : Word) : (s.respond e r0 r1).thr = s.thr := rfl
@[simp] theorem State.respond_upper (s : State) (e : ErrCode) (r0 r1 : Word) : (s.respond e r0 r1).upper = s.upper := rfl
@[simp] theorem State.respond_lower (s : State) (e : ErrCode) (r0 r1 : Word) : (s.respond e r0 r1).lower = s.lower := rfl
@[simp] theorem State.respond_gv (s : State) (e : ErrCode) (r0 r1 : Word) : (s.respond e r0 r1).gv = s.gv := rfl
@[simp] theorem State.respond_thrv (s : State) (e : ErrCode) (r0 r1 : Word) : (s.respond e r0 r1).thrv = s.thrv := rfl
@[simp] theorem State.respond_rspv (s : State) (e : ErrCode) (r0 r1 : Word) : (s.respond e r0 r1).rspv = true := rfl
@[simp] theorem State.respond_cfg (s : State) (e : ErrCode) (r0 r1 : Word) : (s.respond e r0 r1).cfg = s.cfg := rfl
@[simp] theorem State.respond_phase (s : State) (e : ErrCode) (r0 r1 : Word) : (s.respond e r0 r1).phase = .idle := rfl
@[simp] theorem State.respond_cur (s : State) (e : ErrCode) (r0 r1 : Word) : (s.respond e r0 r1).cur = s.cur := rfl
@[simp] theorem State.respond_cw (s : State) (e : ErrCode) (r0 r1 : Word) : (s.respond e r0 r1).cw = s.cw := rfl
@[simp] theorem State.respond_cnt (s : State) (e : ErrCode) (r0 r1 : Word) : (s.respond e r0 r1).cnt = s.cnt := rfl
@[simp] theorem State.respond_acc (s : State) (e : ErrCode) (r0 r1 : Word) : (s.respond e r0 r1).acc = s.acc := rfl
@[simp] theorem State.respond_rsp (s : State) (e : ErrCode) (r0 r1 : Word) : (s.respond e r0 r1).rsp = { err := e, res0 := r0, res1 := r1 } := rfl
@[simp] theorem State.respond_par (s : State) (e : ErrCode) (r0 r1 : Word) : (s.respond e r0 r1).par = s.par := rfl
@[simp] theorem State.respond_bus (s : State) (e : ErrCode) (r0 r1 : Word) : (s.respond e r0 r1).bus = s.bus := rfl
@[simp] theorem State.respond_host (s : State) (e : ErrCode) (r0 r1 : Word) : (s.respond e r0 r1).host = s.host := rfl
@[simp] theorem State.respond_engine (s : State) (e : ErrCode) (r0 r1 : Word) : (s.respond e r0 r1).engine = s.engine := rfl

/-! `State.raise` -/
@[simp] theorem State.raise_a (s : State) (e : ErrCode) : (s.raise e).a = s.a := rfl
@[simp] theorem State.raise_b (s : State) (e : ErrCode) : (s.raise e).b = s.b := rfl
@[simp] theorem State.raise_dist (s : State) (e : ErrCode) : (s.raise e).dist = s.dist := rfl
@[simp] theorem State.raise_thr (s : State) (e : ErrCode) : (s.raise e).thr = s.thr := rfl
@[simp] theorem State.raise_upper (s : State) (e : ErrCode) : (s.raise e).upper = s.upper := rfl
@[simp] theorem State.raise_lower (s : State) (e : ErrCode) : (s.raise e).lower = s.lower := rfl
@[simp] theorem State.raise_gv (s : State) (e : ErrCode) : (s.raise e).gv = s.gv := rfl
@[simp] theorem State.raise_thrv (s : State) (e : ErrCode) : (s.raise e).thrv = s.thrv := rfl
@[simp] theorem State.raise_rspv (s : State) (e : ErrCode) : (s.raise e).rspv = true := rfl
@[simp] theorem State.raise_cfg (s : State) (e : ErrCode) : (s.raise e).cfg = s.cfg := rfl
@[simp] theorem State.raise_phase (s : State) (e : ErrCode) : (s.raise e).phase = .idle := rfl
@[simp] theorem State.raise_cur (s : State) (e : ErrCode) : (s.raise e).cur = s.cur := rfl
@[simp] theorem State.raise_cw (s : State) (e : ErrCode) : (s.raise e).cw = s.cw := rfl
@[simp] theorem State.raise_cnt (s : State) (e : ErrCode) : (s.raise e).cnt = s.cnt := rfl
@[simp] theorem State.raise_acc (s : State) (e : ErrCode) : (s.raise e).acc = s.acc := rfl
@[simp] theorem State.raise_rsp (s : State) (e : ErrCode) : (s.raise e).rsp = { err := e, res0 := 0, res1 := 0 } := rfl
@[simp] theorem State.raise_par (s : State) (e : ErrCode) : (s.raise e).par = s.par := rfl
@[simp] theorem State.raise_bus (s : State) (e : ErrCode) : (s.raise e).bus = s.bus := rfl
@[simp] theorem State.raise_host (s : State) (e : ErrCode) : (s.raise e).host = s.host := rfl
@[simp] theorem State.raise_engine (s : State) (e : ErrCode) : (s.raise e).engine = s.engine := rfl

/-! `State.failed` -/
@[simp] theorem State.failed_a (s : State) (e : ErrCode) : (s.failed e).a = s.a := rfl
@[simp] theorem State.failed_b (s : State) (e : ErrCode) : (s.failed e).b = s.b := rfl
@[simp] theorem State.failed_dist (s : State) (e : ErrCode) : (s.failed e).dist = s.dist := rfl
@[simp] theorem State.failed_thr (s : State) (e : ErrCode) : (s.failed e).thr = s.thr := rfl
@[simp] theorem State.failed_upper (s : State) (e : ErrCode) : (s.failed e).upper = s.upper := rfl
@[simp] theorem State.failed_lower (s : State) (e : ErrCode) : (s.failed e).lower = s.lower := rfl
@[simp] theorem State.failed_gv (s : State) (e : ErrCode) : (s.failed e).gv = s.gv := rfl
@[simp] theorem State.failed_thrv (s : State) (e : ErrCode) : (s.failed e).thrv = s.thrv := rfl
@[simp] theorem State.failed_rspv (s : State) (e : ErrCode) : (s.failed e).rspv = true := rfl
@[simp] theorem State.failed_cfg (s : State) (e : ErrCode) : (s.failed e).cfg = s.cfg := rfl
@[simp] theorem State.failed_phase (s : State) (e : ErrCode) : (s.failed e).phase = .idle := rfl
@[simp] theorem State.failed_cur (s : State) (e : ErrCode) : (s.failed e).cur = s.cur := rfl
@[simp] theorem State.failed_cw (s : State) (e : ErrCode) : (s.failed e).cw = s.cw := rfl
@[simp] theorem State.failed_cnt (s : State) (e : ErrCode) : (s.failed e).cnt = s.cnt := rfl
@[simp] theorem State.failed_acc (s : State) (e : ErrCode) : (s.failed e).acc = s.acc := rfl
@[simp] theorem State.failed_rsp (s : State) (e : ErrCode) : (s.failed e).rsp = { err := e, res0 := 0, res1 := 0 } := rfl
@[simp] theorem State.failed_par (s : State) (e : ErrCode) : (s.failed e).par = s.par := rfl
@[simp] theorem State.failed_bus (s : State) (e : ErrCode) : (s.failed e).bus = s.bus := rfl
@[simp] theorem State.failed_host (s : State) (e : ErrCode) : (s.failed e).host = s.host := rfl
@[simp] theorem State.failed_engine (s : State) (e : ErrCode) : (s.failed e).engine = s.engine := rfl

/-! `State.takeResponse` -/
@[simp] theorem State.takeResponse_a (s : State) : (s.takeResponse).a = s.a := rfl
@[simp] theorem State.takeResponse_b (s : State) : (s.takeResponse).b = s.b := rfl
@[simp] theorem State.takeResponse_dist (s : State) : (s.takeResponse).dist = s.dist := rfl
@[simp] theorem State.takeResponse_thr (s : State) : (s.takeResponse).thr = s.thr := rfl
@[simp] theorem State.takeResponse_upper (s : State) : (s.takeResponse).upper = s.upper := rfl
@[simp] theorem State.takeResponse_lower (s : State) : (s.takeResponse).lower = s.lower := rfl
@[simp] theorem State.takeResponse_gv (s : State) : (s.takeResponse).gv = s.gv := rfl
@[simp] theorem State.takeResponse_thrv (s : State) : (s.takeResponse).thrv = s.thrv := rfl
@[simp] theorem State.takeResponse_rspv (s : State) : (s.takeResponse).rspv = false := rfl
@[simp] theorem State.takeResponse_cfg (s : State) : (s.takeResponse).cfg = s.cfg := rfl
@[simp] theorem State.takeResponse_phase (s : State) : (s.takeResponse).phase = s.phase := rfl
@[simp] theorem State.takeResponse_cur (s : State) : (s.takeResponse).cur = s.cur := rfl
@[simp] theorem State.takeResponse_cw (s : State) : (s.takeResponse).cw = s.cw := rfl
@[simp] theorem State.takeResponse_cnt (s : State) : (s.takeResponse).cnt = s.cnt := rfl
@[simp] theorem State.takeResponse_acc (s : State) : (s.takeResponse).acc = s.acc := rfl
@[simp] theorem State.takeResponse_rsp (s : State) : (s.takeResponse).rsp = s.rsp := rfl
@[simp] theorem State.takeResponse_par (s : State) : (s.takeResponse).par = s.par := rfl
@[simp] theorem State.takeResponse_bus (s : State) : (s.takeResponse).bus = s.bus := rfl
@[simp] theorem State.takeResponse_host (s : State) : (s.takeResponse).host = s.host := rfl
@[simp] theorem State.takeResponse_engine (s : State) : (s.takeResponse).engine = s.engine := rfl

/-! `State.coreReset` -/
@[simp] theorem State.coreReset_a (s : State) : (s.coreReset).a = 0 := rfl
@[simp] theorem State.coreReset_b (s : State) : (s.coreReset).b = 0 := rfl
@[simp] theorem State.coreReset_dist (s : State) : (s.coreReset).dist = 0 := rfl
@[simp] theorem State.coreReset_thr (s : State) : (s.coreReset).thr = 0 := rfl
@[simp] theorem State.coreReset_upper (s : State) : (s.coreReset).upper = 0 := rfl
@[simp] theorem State.coreReset_lower (s : State) : (s.coreReset).lower = 0 := rfl
@[simp] theorem State.coreReset_gv (s : State) : (s.coreReset).gv = false := rfl
@[simp] theorem State.coreReset_thrv (s : State) : (s.coreReset).thrv = false := rfl
@[simp] theorem State.coreReset_rspv (s : State) : (s.coreReset).rspv = false := rfl
@[simp] theorem State.coreReset_cfg (s : State) : (s.coreReset).cfg = 0 := rfl
@[simp] theorem State.coreReset_phase (s : State) : (s.coreReset).phase = .idle := rfl
@[simp] theorem State.coreReset_cur (s : State) : (s.coreReset).cur = .drawop := rfl
@[simp] theorem State.coreReset_cw (s : State) : (s.coreReset).cw = .w32 := rfl
@[simp] theorem State.coreReset_cnt (s : State) : (s.coreReset).cnt = 0 := rfl
@[simp] theorem State.coreReset_acc (s : State) : (s.coreReset).acc = 0 := rfl
@[simp] theorem State.coreReset_rsp (s : State) : (s.coreReset).rsp = { err := .ok, res0 := 0, res1 := 0 } := rfl
@[simp] theorem State.coreReset_par (s : State) : (s.coreReset).par = s.par := rfl
@[simp] theorem State.coreReset_bus (s : State) : (s.coreReset).bus = s.bus := rfl
@[simp] theorem State.coreReset_host (s : State) : (s.coreReset).host = s.host := rfl
@[simp] theorem State.coreReset_engine (s : State) : (s.coreReset).engine = s.engine := rfl

/-! `State.setProduct` -/
@[simp] theorem State.setProduct_a (s : State) (p : Product) : (s.setProduct p).a = s.a := rfl
@[simp] theorem State.setProduct_b (s : State) (p : Product) : (s.setProduct p).b = s.b := rfl
@[simp] theorem State.setProduct_dist (s : State) (p : Product) : (s.setProduct p).dist = s.dist := rfl
@[simp] theorem State.setProduct_thr (s : State) (p : Product) : (s.setProduct p).thr = s.thr := rfl
@[simp] theorem State.setProduct_upper (s : State) (p : Product) : (s.setProduct p).upper = p.upper := rfl
@[simp] theorem State.setProduct_lower (s : State) (p : Product) : (s.setProduct p).lower = p.lower := rfl
@[simp] theorem State.setProduct_gv (s : State) (p : Product) : (s.setProduct p).gv = s.gv := rfl
@[simp] theorem State.setProduct_thrv (s : State) (p : Product) : (s.setProduct p).thrv = s.thrv := rfl
@[simp] theorem State.setProduct_rspv (s : State) (p : Product) : (s.setProduct p).rspv = s.rspv := rfl
@[simp] theorem State.setProduct_cfg (s : State) (p : Product) : (s.setProduct p).cfg = s.cfg := rfl
@[simp] theorem State.setProduct_phase (s : State) (p : Product) : (s.setProduct p).phase = s.phase := rfl
@[simp] theorem State.setProduct_cur (s : State) (p : Product) : (s.setProduct p).cur = s.cur := rfl
@[simp] theorem State.setProduct_cw (s : State) (p : Product) : (s.setProduct p).cw = s.cw := rfl
@[simp] theorem State.setProduct_cnt (s : State) (p : Product) : (s.setProduct p).cnt = s.cnt := rfl
@[simp] theorem State.setProduct_acc (s : State) (p : Product) : (s.setProduct p).acc = s.acc := rfl
@[simp] theorem State.setProduct_rsp (s : State) (p : Product) : (s.setProduct p).rsp = s.rsp := rfl
@[simp] theorem State.setProduct_par (s : State) (p : Product) : (s.setProduct p).par = s.par := rfl
@[simp] theorem State.setProduct_bus (s : State) (p : Product) : (s.setProduct p).bus = s.bus := rfl
@[simp] theorem State.setProduct_host (s : State) (p : Product) : (s.setProduct p).host = s.host := rfl
@[simp] theorem State.setProduct_engine (s : State) (p : Product) : (s.setProduct p).engine = s.engine := rfl

/-! `State.startDraw` -/
@[simp] theorem State.startDraw_a (s : State) (w : Width) : (s.startDraw w).a = s.a := rfl
@[simp] theorem State.startDraw_b (s : State) (w : Width) : (s.startDraw w).b = s.b := rfl
@[simp] theorem State.startDraw_dist (s : State) (w : Width) : (s.startDraw w).dist = s.dist := rfl
@[simp] theorem State.startDraw_thr (s : State) (w : Width) : (s.startDraw w).thr = s.thr := rfl
@[simp] theorem State.startDraw_upper (s : State) (w : Width) : (s.startDraw w).upper = s.upper := rfl
@[simp] theorem State.startDraw_lower (s : State) (w : Width) : (s.startDraw w).lower = s.lower := rfl
@[simp] theorem State.startDraw_gv (s : State) (w : Width) : (s.startDraw w).gv = s.gv := rfl
@[simp] theorem State.startDraw_thrv (s : State) (w : Width) : (s.startDraw w).thrv = s.thrv := rfl
@[simp] theorem State.startDraw_rspv (s : State) (w : Width) : (s.startDraw w).rspv = s.rspv := rfl
@[simp] theorem State.startDraw_cfg (s : State) (w : Width) : (s.startDraw w).cfg = s.cfg := rfl
@[simp] theorem State.startDraw_phase (s : State) (w : Width) : (s.startDraw w).phase = .fill := rfl
@[simp] theorem State.startDraw_cur (s : State) (w : Width) : (s.startDraw w).cur = s.cur := rfl
@[simp] theorem State.startDraw_cw (s : State) (w : Width) : (s.startDraw w).cw = w := rfl
@[simp] theorem State.startDraw_cnt (s : State) (w : Width) : (s.startDraw w).cnt = wordsPerDraw s.par.engw w := rfl
@[simp] theorem State.startDraw_acc (s : State) (w : Width) : (s.startDraw w).acc = 0 := rfl
@[simp] theorem State.startDraw_rsp (s : State) (w : Width) : (s.startDraw w).rsp = s.rsp := rfl
@[simp] theorem State.startDraw_par (s : State) (w : Width) : (s.startDraw w).par = s.par := rfl
@[simp] theorem State.startDraw_bus (s : State) (w : Width) : (s.startDraw w).bus = s.bus := rfl
@[simp] theorem State.startDraw_host (s : State) (w : Width) : (s.startDraw w).host = s.host := rfl
@[simp] theorem State.startDraw_engine (s : State) (w : Width) : (s.startDraw w).engine = s.engine := rfl

/-! `State.present` -/
@[simp] theorem State.present_a (s : State) (c : Command) (h : List HostMove) : (s.present c h).a = s.a := rfl
@[simp] theorem State.present_b (s : State) (c : Command) (h : List HostMove) : (s.present c h).b = s.b := rfl
@[simp] theorem State.present_dist (s : State) (c : Command) (h : List HostMove) : (s.present c h).dist = s.dist := rfl
@[simp] theorem State.present_thr (s : State) (c : Command) (h : List HostMove) : (s.present c h).thr = s.thr := rfl
@[simp] theorem State.present_upper (s : State) (c : Command) (h : List HostMove) : (s.present c h).upper = s.upper := rfl
@[simp] theorem State.present_lower (s : State) (c : Command) (h : List HostMove) : (s.present c h).lower = s.lower := rfl
@[simp] theorem State.present_gv (s : State) (c : Command) (h : List HostMove) : (s.present c h).gv = s.gv := rfl
@[simp] theorem State.present_thrv (s : State) (c : Command) (h : List HostMove) : (s.present c h).thrv = s.thrv := rfl
@[simp] theorem State.present_rspv (s : State) (c : Command) (h : List HostMove) : (s.present c h).rspv = s.rspv := rfl
@[simp] theorem State.present_cfg (s : State) (c : Command) (h : List HostMove) : (s.present c h).cfg = s.cfg := rfl
@[simp] theorem State.present_phase (s : State) (c : Command) (h : List HostMove) : (s.present c h).phase = s.phase := rfl
@[simp] theorem State.present_cur (s : State) (c : Command) (h : List HostMove) : (s.present c h).cur = s.cur := rfl
@[simp] theorem State.present_cw (s : State) (c : Command) (h : List HostMove) : (s.present c h).cw = s.cw := rfl
@[simp] theorem State.present_cnt (s : State) (c : Command) (h : List HostMove) : (s.present c h).cnt = s.cnt := rfl
@[simp] theorem State.present_acc (s : State) (c : Command) (h : List HostMove) : (s.present c h).acc = s.acc := rfl
@[simp] theorem State.present_rsp (s : State) (c : Command) (h : List HostMove) : (s.present c h).rsp = s.rsp := rfl
@[simp] theorem State.present_par (s : State) (c : Command) (h : List HostMove) : (s.present c h).par = s.par := rfl
@[simp] theorem State.present_bus (s : State) (c : Command) (h : List HostMove) : (s.present c h).bus = c := rfl
@[simp] theorem State.present_host (s : State) (c : Command) (h : List HostMove) : (s.present c h).host = h := rfl
@[simp] theorem State.present_engine (s : State) (c : Command) (h : List HostMove) : (s.present c h).engine = s.engine := rfl

/-! `bindGenerator` -/
@[simp] theorem bindGenerator_a (v : Variant) (mul : BitVec 2) (w sg : Bool) (ua ub : Word) (s : State) :
    (bindGenerator v mul w sg ua ub s).a = ua := rfl
@[simp] theorem bindGenerator_b (v : Variant) (mul : BitVec 2) (w sg : Bool) (ua ub : Word) (s : State) :
    (bindGenerator v mul w sg ua ub s).b = ub := rfl
@[simp] theorem bindGenerator_dist (v : Variant) (mul : BitVec 2) (w sg : Bool) (ua ub : Word) (s : State) :
    (bindGenerator v mul w sg ua ub s).dist = addW (widthOf w) (subW (widthOf w) ub ua) 1 := rfl
@[simp] theorem bindGenerator_thr (v : Variant) (mul : BitVec 2) (w sg : Bool) (ua ub : Word) (s : State) :
    (bindGenerator v mul w sg ua ub s).thr = (thresholdAtBind v (widthOf w) (addW (widthOf w) (subW (widthOf w) ub ua) 1)).1 := rfl
@[simp] theorem bindGenerator_upper (v : Variant) (mul : BitVec 2) (w sg : Bool) (ua ub : Word) (s : State) :
    (bindGenerator v mul w sg ua ub s).upper = s.upper := rfl
@[simp] theorem bindGenerator_lower (v : Variant) (mul : BitVec 2) (w sg : Bool) (ua ub : Word) (s : State) :
    (bindGenerator v mul w sg ua ub s).lower = s.lower := rfl
@[simp] theorem bindGenerator_gv (v : Variant) (mul : BitVec 2) (w sg : Bool) (ua ub : Word) (s : State) :
    (bindGenerator v mul w sg ua ub s).gv = true := rfl
@[simp] theorem bindGenerator_thrv (v : Variant) (mul : BitVec 2) (w sg : Bool) (ua ub : Word) (s : State) :
    (bindGenerator v mul w sg ua ub s).thrv = (thresholdAtBind v (widthOf w) (addW (widthOf w) (subW (widthOf w) ub ua) 1)).2 := rfl
@[simp] theorem bindGenerator_rspv (v : Variant) (mul : BitVec 2) (w sg : Bool) (ua ub : Word) (s : State) :
    (bindGenerator v mul w sg ua ub s).rspv = s.rspv := rfl
@[simp] theorem bindGenerator_cfg (v : Variant) (mul : BitVec 2) (w sg : Bool) (ua ub : Word) (s : State) :
    (bindGenerator v mul w sg ua ub s).cfg = cfgWord mul v w sg := rfl
@[simp] theorem bindGenerator_phase (v : Variant) (mul : BitVec 2) (w sg : Bool) (ua ub : Word) (s : State) :
    (bindGenerator v mul w sg ua ub s).phase = s.phase := rfl
@[simp] theorem bindGenerator_cur (v : Variant) (mul : BitVec 2) (w sg : Bool) (ua ub : Word) (s : State) :
    (bindGenerator v mul w sg ua ub s).cur = s.cur := rfl
@[simp] theorem bindGenerator_cw (v : Variant) (mul : BitVec 2) (w sg : Bool) (ua ub : Word) (s : State) :
    (bindGenerator v mul w sg ua ub s).cw = s.cw := rfl
@[simp] theorem bindGenerator_cnt (v : Variant) (mul : BitVec 2) (w sg : Bool) (ua ub : Word) (s : State) :
    (bindGenerator v mul w sg ua ub s).cnt = s.cnt := rfl
@[simp] theorem bindGenerator_acc (v : Variant) (mul : BitVec 2) (w sg : Bool) (ua ub : Word) (s : State) :
    (bindGenerator v mul w sg ua ub s).acc = s.acc := rfl
@[simp] theorem bindGenerator_rsp (v : Variant) (mul : BitVec 2) (w sg : Bool) (ua ub : Word) (s : State) :
    (bindGenerator v mul w sg ua ub s).rsp = s.rsp := rfl
@[simp] theorem bindGenerator_par (v : Variant) (mul : BitVec 2) (w sg : Bool) (ua ub : Word) (s : State) :
    (bindGenerator v mul w sg ua ub s).par = s.par := rfl
@[simp] theorem bindGenerator_bus (v : Variant) (mul : BitVec 2) (w sg : Bool) (ua ub : Word) (s : State) :
    (bindGenerator v mul w sg ua ub s).bus = s.bus := rfl
@[simp] theorem bindGenerator_host (v : Variant) (mul : BitVec 2) (w sg : Bool) (ua ub : Word) (s : State) :
    (bindGenerator v mul w sg ua ub s).host = s.host := rfl
@[simp] theorem bindGenerator_engine (v : Variant) (mul : BitVec 2) (w sg : Bool) (ua ub : Word) (s : State) :
    (bindGenerator v mul w sg ua ub s).engine = s.engine := rfl

/-! `refreshNoReuse` and `ensureThreshold`: the fields they never write -/
@[simp] theorem refreshNoReuse_a (s : State) : (refreshNoReuse s).a = s.a := by
  unfold refreshNoReuse; split <;> rfl
@[simp] theorem refreshNoReuse_b (s : State) : (refreshNoReuse s).b = s.b := by
  unfold refreshNoReuse; split <;> rfl
@[simp] theorem refreshNoReuse_thr (s : State) : (refreshNoReuse s).thr = s.thr := by
  unfold refreshNoReuse; split <;> rfl
@[simp] theorem refreshNoReuse_upper (s : State) : (refreshNoReuse s).upper = s.upper := by
  unfold refreshNoReuse; split <;> rfl
@[simp] theorem refreshNoReuse_lower (s : State) : (refreshNoReuse s).lower = s.lower := by
  unfold refreshNoReuse; split <;> rfl
@[simp] theorem refreshNoReuse_gv (s : State) : (refreshNoReuse s).gv = s.gv := by
  unfold refreshNoReuse; split <;> rfl
@[simp] theorem refreshNoReuse_rspv (s : State) : (refreshNoReuse s).rspv = s.rspv := by
  unfold refreshNoReuse; split <;> rfl
@[simp] theorem refreshNoReuse_cfg (s : State) : (refreshNoReuse s).cfg = s.cfg := by
  unfold refreshNoReuse; split <;> rfl
@[simp] theorem refreshNoReuse_phase (s : State) : (refreshNoReuse s).phase = s.phase := by
  unfold refreshNoReuse; split <;> rfl
@[simp] theorem refreshNoReuse_cur (s : State) : (refreshNoReuse s).cur = s.cur := by
  unfold refreshNoReuse; split <;> rfl
@[simp] theorem refreshNoReuse_cw (s : State) : (refreshNoReuse s).cw = s.cw := by
  unfold refreshNoReuse; split <;> rfl
@[simp] theorem refreshNoReuse_cnt (s : State) : (refreshNoReuse s).cnt = s.cnt := by
  unfold refreshNoReuse; split <;> rfl
@[simp] theorem refreshNoReuse_acc (s : State) : (refreshNoReuse s).acc = s.acc := by
  unfold refreshNoReuse; split <;> rfl
@[simp] theorem refreshNoReuse_rsp (s : State) : (refreshNoReuse s).rsp = s.rsp := by
  unfold refreshNoReuse; split <;> rfl
@[simp] theorem refreshNoReuse_par (s : State) : (refreshNoReuse s).par = s.par := by
  unfold refreshNoReuse; split <;> rfl
@[simp] theorem refreshNoReuse_bus (s : State) : (refreshNoReuse s).bus = s.bus := by
  unfold refreshNoReuse; split <;> rfl
@[simp] theorem refreshNoReuse_host (s : State) : (refreshNoReuse s).host = s.host := by
  unfold refreshNoReuse; split <;> rfl
@[simp] theorem refreshNoReuse_engine (s : State) : (refreshNoReuse s).engine = s.engine := by
  unfold refreshNoReuse; split <;> rfl
@[simp] theorem ensureThreshold_a (s : State) : (ensureThreshold s).a = s.a := by
  unfold ensureThreshold; split <;> rfl
@[simp] theorem ensureThreshold_b (s : State) : (ensureThreshold s).b = s.b := by
  unfold ensureThreshold; split <;> rfl
@[simp] theorem ensureThreshold_dist (s : State) : (ensureThreshold s).dist = s.dist := by
  unfold ensureThreshold; split <;> rfl
@[simp] theorem ensureThreshold_upper (s : State) : (ensureThreshold s).upper = s.upper := by
  unfold ensureThreshold; split <;> rfl
@[simp] theorem ensureThreshold_lower (s : State) : (ensureThreshold s).lower = s.lower := by
  unfold ensureThreshold; split <;> rfl
@[simp] theorem ensureThreshold_gv (s : State) : (ensureThreshold s).gv = s.gv := by
  unfold ensureThreshold; split <;> rfl
@[simp] theorem ensureThreshold_rspv (s : State) : (ensureThreshold s).rspv = s.rspv := by
  unfold ensureThreshold; split <;> rfl
@[simp] theorem ensureThreshold_cfg (s : State) : (ensureThreshold s).cfg = s.cfg := by
  unfold ensureThreshold; split <;> rfl
@[simp] theorem ensureThreshold_phase (s : State) : (ensureThreshold s).phase = s.phase := by
  unfold ensureThreshold; split <;> rfl
@[simp] theorem ensureThreshold_cur (s : State) : (ensureThreshold s).cur = s.cur := by
  unfold ensureThreshold; split <;> rfl
@[simp] theorem ensureThreshold_cw (s : State) : (ensureThreshold s).cw = s.cw := by
  unfold ensureThreshold; split <;> rfl
@[simp] theorem ensureThreshold_cnt (s : State) : (ensureThreshold s).cnt = s.cnt := by
  unfold ensureThreshold; split <;> rfl
@[simp] theorem ensureThreshold_acc (s : State) : (ensureThreshold s).acc = s.acc := by
  unfold ensureThreshold; split <;> rfl
@[simp] theorem ensureThreshold_rsp (s : State) : (ensureThreshold s).rsp = s.rsp := by
  unfold ensureThreshold; split <;> rfl
@[simp] theorem ensureThreshold_par (s : State) : (ensureThreshold s).par = s.par := by
  unfold ensureThreshold; split <;> rfl
@[simp] theorem ensureThreshold_bus (s : State) : (ensureThreshold s).bus = s.bus := by
  unfold ensureThreshold; split <;> rfl
@[simp] theorem ensureThreshold_host (s : State) : (ensureThreshold s).host = s.host := by
  unfold ensureThreshold; split <;> rfl
@[simp] theorem ensureThreshold_engine (s : State) : (ensureThreshold s).engine = s.engine := by
  unfold ensureThreshold; split <;> rfl

@[simp] theorem ensureThreshold_thrv (s : State) : (ensureThreshold s).thrv = true := by
  unfold ensureThreshold; split <;> simp_all

theorem ensureThreshold_thr (s : State) :
    (ensureThreshold s).thr = if s.thrv then s.thr else thrW s.cfgWidth (low s.cfgWidth s.dist) := by
  unfold ensureThreshold; split <;> rfl

/-! The views and the fields of `CFG` depend on `CFG` alone -/

theorem State.cfgWidth_eq_of_cfg {s t : State} (h : s.cfg = t.cfg) : s.cfgWidth = t.cfgWidth := by
  simp [State.cfgWidth, h]
theorem State.cfgSigned_eq_of_cfg {s t : State} (h : s.cfg = t.cfg) : s.cfgSigned = t.cfgSigned := by
  simp [State.cfgSigned, h]
theorem State.cfgVar_eq_of_cfg {s t : State} (h : s.cfg = t.cfg) : s.cfgVar = t.cfgVar := by
  simp [State.cfgVar, h]
theorem State.cfgMul_eq_of_cfg {s t : State} (h : s.cfg = t.cfg) : s.cfgMul = t.cfgMul := by
  simp [State.cfgMul, h]

/-! The fields of `CFG` under the updates that leave `CFG` alone -/

@[simp] theorem State.respond_cfgWidth (s : State) (e : ErrCode) (r0 r1 : Word) : (s.respond e r0 r1).cfgWidth = s.cfgWidth := rfl
@[simp] theorem State.respond_cfgSigned (s : State) (e : ErrCode) (r0 r1 : Word) : (s.respond e r0 r1).cfgSigned = s.cfgSigned := rfl
@[simp] theorem State.respond_cfgVar (s : State) (e : ErrCode) (r0 r1 : Word) : (s.respond e r0 r1).cfgVar = s.cfgVar := rfl
@[simp] theorem State.respond_cfgMul (s : State) (e : ErrCode) (r0 r1 : Word) : (s.respond e r0 r1).cfgMul = s.cfgMul := rfl
@[simp] theorem State.raise_cfgWidth (s : State) (e : ErrCode) : (s.raise e).cfgWidth = s.cfgWidth := rfl
@[simp] theorem State.raise_cfgSigned (s : State) (e : ErrCode) : (s.raise e).cfgSigned = s.cfgSigned := rfl
@[simp] theorem State.raise_cfgVar (s : State) (e : ErrCode) : (s.raise e).cfgVar = s.cfgVar := rfl
@[simp] theorem State.raise_cfgMul (s : State) (e : ErrCode) : (s.raise e).cfgMul = s.cfgMul := rfl
@[simp] theorem State.takeResponse_cfgWidth (s : State) : (s.takeResponse).cfgWidth = s.cfgWidth := rfl
@[simp] theorem State.takeResponse_cfgSigned (s : State) : (s.takeResponse).cfgSigned = s.cfgSigned := rfl
@[simp] theorem State.takeResponse_cfgVar (s : State) : (s.takeResponse).cfgVar = s.cfgVar := rfl
@[simp] theorem State.takeResponse_cfgMul (s : State) : (s.takeResponse).cfgMul = s.cfgMul := rfl
@[simp] theorem State.setProduct_cfgWidth (s : State) (p : Product) : (s.setProduct p).cfgWidth = s.cfgWidth := rfl
@[simp] theorem State.setProduct_cfgSigned (s : State) (p : Product) : (s.setProduct p).cfgSigned = s.cfgSigned := rfl
@[simp] theorem State.setProduct_cfgVar (s : State) (p : Product) : (s.setProduct p).cfgVar = s.cfgVar := rfl
@[simp] theorem State.setProduct_cfgMul (s : State) (p : Product) : (s.setProduct p).cfgMul = s.cfgMul := rfl
@[simp] theorem State.startDraw_cfgWidth (s : State) (w : Width) : (s.startDraw w).cfgWidth = s.cfgWidth := rfl
@[simp] theorem State.startDraw_cfgSigned (s : State) (w : Width) : (s.startDraw w).cfgSigned = s.cfgSigned := rfl
@[simp] theorem State.startDraw_cfgVar (s : State) (w : Width) : (s.startDraw w).cfgVar = s.cfgVar := rfl
@[simp] theorem State.startDraw_cfgMul (s : State) (w : Width) : (s.startDraw w).cfgMul = s.cfgMul := rfl
@[simp] theorem State.present_cfgWidth (s : State) (c : Command) (h : List HostMove) : (s.present c h).cfgWidth = s.cfgWidth := rfl
@[simp] theorem State.present_cfgSigned (s : State) (c : Command) (h : List HostMove) : (s.present c h).cfgSigned = s.cfgSigned := rfl
@[simp] theorem State.present_cfgVar (s : State) (c : Command) (h : List HostMove) : (s.present c h).cfgVar = s.cfgVar := rfl
@[simp] theorem State.present_cfgMul (s : State) (c : Command) (h : List HostMove) : (s.present c h).cfgMul = s.cfgMul := rfl
@[simp] theorem refreshNoReuse_cfgWidth (s : State) : (refreshNoReuse s).cfgWidth = s.cfgWidth :=
  State.cfgWidth_eq_of_cfg (refreshNoReuse_cfg s)
@[simp] theorem refreshNoReuse_cfgSigned (s : State) : (refreshNoReuse s).cfgSigned = s.cfgSigned :=
  State.cfgSigned_eq_of_cfg (refreshNoReuse_cfg s)
@[simp] theorem refreshNoReuse_cfgVar (s : State) : (refreshNoReuse s).cfgVar = s.cfgVar :=
  State.cfgVar_eq_of_cfg (refreshNoReuse_cfg s)
@[simp] theorem refreshNoReuse_cfgMul (s : State) : (refreshNoReuse s).cfgMul = s.cfgMul :=
  State.cfgMul_eq_of_cfg (refreshNoReuse_cfg s)
@[simp] theorem ensureThreshold_cfgWidth (s : State) : (ensureThreshold s).cfgWidth = s.cfgWidth :=
  State.cfgWidth_eq_of_cfg (ensureThreshold_cfg s)
@[simp] theorem ensureThreshold_cfgSigned (s : State) : (ensureThreshold s).cfgSigned = s.cfgSigned :=
  State.cfgSigned_eq_of_cfg (ensureThreshold_cfg s)
@[simp] theorem ensureThreshold_cfgVar (s : State) : (ensureThreshold s).cfgVar = s.cfgVar :=
  State.cfgVar_eq_of_cfg (ensureThreshold_cfg s)
@[simp] theorem ensureThreshold_cfgMul (s : State) : (ensureThreshold s).cfgMul = s.cfgMul :=
  State.cfgMul_eq_of_cfg (ensureThreshold_cfg s)

end Sys2Proof.Machine
end

