-- ==== Sys2Proof/Laws/Ops.lean ====
section
/-! SUPPORT. One lemma per shared operation that says once everything it can do, and one per part of a step: later proofs cite
these and do not unfold the operations. -/

namespace Sys2Proof.Machine

/-! Outcomes are injective and distinct. -/

@[simp] theorem result_next_inj {s t : State} : (Host.Outcome.next s : Result) = .next t ↔ s = t :=
  ⟨fun h => by injection h, fun h => by rw [h]⟩
@[simp] theorem result_fault_ne_next {f : Fault} {t : State} : (Host.Outcome.fault f : Result) ≠ .next t := nofun
@[simp] theorem result_refused_ne_next {r : Refusal} {t : State} :
    (Host.Outcome.refused r : Result) ≠ .next t := nofun
@[simp] theorem result_next_ne_fault {f : Fault} {s : State} : (Host.Outcome.next s : Result) ≠ .fault f := nofun
@[simp] theorem result_next_ne_refused {r : Refusal} {s : State} :
    (Host.Outcome.next s : Result) ≠ .refused r := nofun

/-! Reading registers. -/

/-- RDREG's register space: a read answers exactly for the numbers that name a register (10_state R23). -/
theorem readReg_isSome_iff (s : State) (n : BitVec 4) : (s.readReg n).isSome = true ↔ regLegal n := by
  have h : ∀ m : BitVec 4, ((State.reset.readReg m).isSome = true ↔ regLegal m) := by decide
  have e : (s.readReg n).isSome = (State.reset.readReg n).isSome := by
    unfold State.readReg
    split <;> rfl
  rw [e]
  exact h n

/-! The engine. -/

/-- Everything `EngNext` can do: deliver the word at `EPOS` and advance by one, or nothing while the
engine is silent. -/
theorem engNext_eq (s : State) : s.engNext =
    if s.engineAnswers 1 then
      some (s.engineWordAt s.engine.pos, { s with engine := s.engine.advance 1 })
    else none := by
  unfold State.engNext
  split
  · next e es h =>
    rw [if_pos (Or.inr (by simp [h]))]
    simp [State.engineWordAt, Engine.advance, h]
  · next h =>
    split
    · next hl =>
      rw [if_pos (Or.inl hl)]
      simp [State.engineWordAt, Engine.advance, h]
    · next hl => rw [if_neg (by simp [State.engineAnswers, h, hl])]

/-- Everything S2 can do with a word (41_adapter R123). -/
theorem acceptWord_cases {s : State} {e : Word} {r : Result} (h : s.acceptWord e = r) :
    (s.cnt = 0 ∧ r = .fault .fillWithoutCount) ∨
    (s.cnt = 1 ∧ r = .next { s with acc := foldWord s.par.engw s.cw s.acc e, cnt := 0, phase := .eval }) ∨
    (s.cnt = 2 ∧ r = .next { s with acc := foldWord s.par.engw s.cw s.acc e, cnt := 1 }) := by
  subst h
  unfold State.acceptWord
  split <;> simp_all

/-- Everything the engine step can do. -/
theorem fillStep_eq (s : State) : fillStep s =
    if s.engineAnswers 1 then
      State.acceptWord { s with engine := s.engine.advance 1 } (s.engineWordAt s.engine.pos)
    else .next s := by
  unfold fillStep
  rw [engNext_eq]
  by_cases h : s.engineAnswers 1
  · rw [if_pos h, if_pos h]
  · rw [if_neg h, if_neg h]

/-! The commands, one lemma per meaning. -/

/-- Everything a NEWGEN can do (43_generator R151, R152). -/
theorem newgen_cases {v : Variant} {mul : BitVec 2} {w sg chk : Bool} {s : State} {r : Result}
    (h : newgen v mul w sg chk s = r) :
    let ua := toUnsigned (widthOf w) sg (low (widthOf w) s.bus.op0)
    let ub := toUnsigned (widthOf w) sg (low (widthOf w) s.bus.op1)
    (mul = 3 ∧ r = .next (s.raise .illegal)) ∨
    (mul = 2 ∧ s.par.hasWideMul = false ∧ r = .next (s.raise .cap)) ∨
    (mul ≠ 3 ∧ (mul = 2 → s.par.hasWideMul = true) ∧
      ((ub < ua ∧ chk = true ∧ r = .next (s.raise .range)) ∨
       (ub < ua ∧ chk = false ∧ r = .refused .uncheckedRange) ∨
       (ua ≤ ub ∧ r = .next ((bindGenerator v mul w sg ua ub s).respond .ok 0 0)))) := by
  intro ua ub
  subst h
  unfold newgen
  by_cases h3 : mul = 3
  · exact Or.inl ⟨h3, if_pos h3⟩
  · rw [if_neg h3]
    by_cases h2 : mul = 2 ∧ s.par.hasWideMul = false
    · exact Or.inr (Or.inl ⟨h2.1, h2.2, if_pos h2⟩)
    · rw [if_neg h2]
      refine Or.inr (Or.inr ⟨h3, fun e => by simpa using fun f => h2 ⟨e, f⟩, ?_⟩)
      by_cases hlt : ub < ua
      · rw [if_pos hlt]
        cases chk
        · exact Or.inr (Or.inl ⟨hlt, rfl, rfl⟩)
        · exact Or.inl ⟨hlt, rfl, rfl⟩
      · rw [if_neg hlt]
        exact Or.inr (Or.inr ⟨BitVec.not_lt.mp hlt, rfl⟩)

/-- Everything NEXT can do in step S1 (43_generator R158). -/
theorem execNext_cases {s : State} {r : Result} (h : execNext s = r) :
    (s.gv = false ∧ r = .next (s.raise .nogen)) ∨
    (s.gv = true ∧
      r = .next (State.startDraw { refreshNoReuse s with cur := .nextop } s.cfgWidth)) := by
  subst h
  unfold execNext
  cases s.gv <;> simp

/-- Everything RDREG can do (44_system R190). -/
theorem execRdreg_cases {reg : BitVec 4} {s : State} {r : Result} (h : execRdreg reg s = r) :
    (∃ v, s.readReg reg = some v ∧ r = .next (s.respond .ok v 0)) ∨
    (s.readReg reg = none ∧ r = .next (s.raise .illegal)) := by
  subst h
  unfold execRdreg
  split <;> simp_all

/-- Everything EXTMUL.I can do (40_extmul R109). -/
theorem execExtmulI_cases {s : State} {r : Result} (h : execExtmulI s = r) :
    (s.par.hasWideMul = true ∧ r = finishExtmul (extmul s.bus.op0 s.bus.op1) s) ∨
    (s.par.hasWideMul = false ∧ r = .next (s.raise .cap)) := by
  subst h
  unfold execExtmulI
  cases s.par.hasWideMul <;> simp

/-! The evaluation of a draw. -/

/-- Everything the decision on a scaled draw can do (43_generator R164 to R166). -/
theorem decideDraw_cases (p : Product) (s : State) :
    (fastAccept s.thrv p.lower (low s.cfgWidth s.dist) = true ∧ decideDraw p s = acceptDraw p.upper s) ∨
    (fastAccept s.thrv p.lower (low s.cfgWidth s.dist) = false ∧
      low s.cfgWidth (ensureThreshold s).thr ≤ p.lower ∧
      decideDraw p s = acceptDraw p.upper (ensureThreshold s)) ∨
    (fastAccept s.thrv p.lower (low s.cfgWidth s.dist) = false ∧
      p.lower < low s.cfgWidth (ensureThreshold s).thr ∧
      decideDraw p s = (ensureThreshold s).startDraw s.cfgWidth) := by
  unfold decideDraw
  cases hf : fastAccept s.thrv p.lower (low s.cfgWidth s.dist) with
  | true => simp
  | false =>
    by_cases hl : low s.cfgWidth (ensureThreshold s).thr ≤ p.lower
    · exact Or.inr (Or.inl ⟨rfl, hl, by simp [hl]⟩)
    · exact Or.inr (Or.inr ⟨rfl, BitVec.not_le.mp hl, by simp [hl]⟩)

/-- Everything the evaluation of a NEXT can do (43_generator R162, R163). -/
theorem evalNext_cases (s : State) :
    (low s.cfgWidth s.dist = 0 ∧
      evalNext s = s.respond .ok (toSigned s.cfgWidth s.cfgSigned (low s.cfgWidth s.acc)) 0) ∨
    (low s.cfgWidth s.dist ≠ 0 ∧
      evalNext s = decideDraw (extmulW s.cfgWidth (low s.cfgWidth s.acc) (low s.cfgWidth s.dist))
        (s.setProduct (extmulW s.cfgWidth (low s.cfgWidth s.acc) (low s.cfgWidth s.dist)))) := by
  unfold evalNext
  by_cases h : low s.cfgWidth s.dist = 0
  · exact Or.inl ⟨h, if_pos h⟩
  · exact Or.inr ⟨h, if_neg h⟩

/-! One step. -/

/-- Everything the core and the engine can do without the host (10_state R35). -/
theorem coreStep_cases {s : State} {r : Result} (h : coreStep s = r) :
    (s.phase = .idle ∧ r = .next s) ∨ (s.phase = .fill ∧ r = fillStep s) ∨
    (s.phase = .eval ∧ s.cur = .drawop ∧ r = .next (evalDraw s)) ∨
    (s.phase = .eval ∧ s.cur = .nextop ∧ r = .next (evalNext s)) := by
  subst h
  unfold coreStep evalStep
  cases s.phase <;> cases s.cur <;> simp

/-- Everything step S1 can do: run the decoded command, or answer ERR_ILLEGAL. -/
theorem runCommand_cases {run : Instr → State → Result} {s : State} {r : Result} (h : runCommand run s = r) :
    (∃ i, decode s.bus.cmd = .ok i ∧ r = run i s) ∨
    (∃ e, decode s.bus.cmd = .error e ∧ r = .next (s.raise .illegal)) := by
  subst h
  unfold runCommand
  split <;> simp_all

/-- Everything a step can do (10_state R35): a move of the host that is enabled, or else the step of
the core and the engine, after a `pass` or with the host waiting. -/
theorem step_cases {s : State} {r : Result} (h : step s = r) :
    (∃ rest, s.host = .reset :: rest ∧ r = .next (State.coreReset { s with host := rest })) ∨
    (∃ rest, s.host = .take :: rest ∧ s.rspv = true ∧
      r = .next (State.takeResponse { s with host := rest })) ∨
    (∃ c rest, s.host = .issue c :: rest ∧ s.ready = true ∧ r = runCommand exec (s.present c rest)) ∨
    (∃ rest, s.host = .pass :: rest ∧ r = coreStep { s with host := rest }) ∨
    (((∃ rest, s.host = .take :: rest ∧ s.rspv = false) ∨
      (∃ c rest, s.host = .issue c :: rest ∧ s.ready = false) ∨ s.host = []) ∧ r = coreStep s) := by
  subst h
  unfold step stepWith
  split
  · next rest h => exact Or.inl ⟨rest, h, rfl⟩
  · next rest h =>
    cases hv : s.rspv
    · exact Or.inr (Or.inr (Or.inr (Or.inr ⟨Or.inl ⟨rest, h, rfl⟩, by simp⟩)))
    · exact Or.inr (Or.inl ⟨rest, h, rfl, by simp⟩)
  · next c rest h =>
    cases hr : s.ready
    · exact Or.inr (Or.inr (Or.inr (Or.inr ⟨Or.inr (Or.inl ⟨c, rest, h, rfl⟩), by simp⟩)))
    · exact Or.inr (Or.inr (Or.inl ⟨c, rest, h, rfl, by simp⟩))
  · next rest h => exact Or.inr (Or.inr (Or.inr (Or.inl ⟨rest, h, rfl⟩)))
  · next h => exact Or.inr (Or.inr (Or.inr (Or.inr ⟨Or.inr (Or.inr h), rfl⟩)))

theorem ready_iff (s : State) : s.ready = true ↔ s.phase = .idle ∧ s.rspv = false := by
  simp [State.ready]

/-! Runs. -/

@[simp] theorem runFor_zero (s : State) : runFor 0 s = .next s := rfl

theorem runFor_succ (k : Nat) (s : State) : runFor (k + 1) s =
    match step s with
    | .next t => runFor k t
    | .fault f => .fault f
    | .refused r => .refused r := by
  have e : runFor (k + 1) s = _ := Host.Core.run.eq_2 core s k
  rw [e]
  cases hs : step s with
  | next t => rw [show core.step s = .next t from hs]; rfl
  | fault f => rw [show core.step s = .fault f from hs]; rfl
  | refused r => rw [show core.step s = .refused r from hs]; rfl

theorem runFor_succ_of_next {k : Nat} {s t : State} (h : step s = .next t) :
    runFor (k + 1) s = runFor k t := by
  rw [runFor_succ, h]

/-- A run of `m + n` steps is a run of `m` and then of `n`. -/
theorem runFor_add {m n : Nat} {s t : State} (h : runFor m s = .next t) : runFor (m + n) s = runFor n t := by
  induction m generalizing s with
  | zero => cases h; rw [Nat.zero_add]
  | succ m ih =>
    rw [Nat.succ_add, runFor_succ]
    rw [runFor_succ] at h
    cases hs : step s with
    | next u => rw [hs] at h; exact ih h
    | fault f => rw [hs] at h; exact absurd h result_fault_ne_next
    | refused q => rw [hs] at h; exact absurd h result_refused_ne_next

/-- What every step keeps, every run keeps. -/
theorem runFor_induction {P : State → Prop} (hstep : ∀ s t, P s → step s = .next t → P t) {k : Nat}
    {s t : State} (hs : P s) (h : runFor k s = .next t) : P t := by
  induction k generalizing s with
  | zero => cases h; exact hs
  | succ k ih =>
    rw [runFor_succ] at h
    cases hu : step s with
    | next u => rw [hu] at h; exact ih (hstep s u hs hu) h
    | fault f => rw [hu] at h; exact absurd h result_fault_ne_next
    | refused q => rw [hu] at h; exact absurd h result_refused_ne_next

end Sys2Proof.Machine
end

