-- ==== Sys2Proof/Laws/PerInstr.lean ====
section
/-! SUPPORT. What holds of every command as syntax, one lemma per constructor: where its word's opcode and reserved bits
stand (spec 30_encoding R71, R72). -/

namespace Sys2Proof.Laws

/-- The major opcode of a command (R72). -/
def majorOpcode : Instr → BitVec 4
  | .extmulS => 1
  | .extmulO => 1
  | .extmulI => 1
  | .draw32 => 2
  | .draw64 => 2
  | .touns _ _ => 3
  | .tosgn _ _ => 4
  | .newgenNR _ _ _ _ => 5
  | .newgenRU _ _ _ _ => 5
  | .newgenLZ _ _ _ _ => 5
  | .next => 6
  | .rdreg _ => 7

/-- The word of the command has its major opcode in `cmd[3:0]` and 0 in `cmd[31:15]`. -/
def EncodeShape.Statement (i : Instr) : Prop :=
  (encode i).extractLsb' 0 4 = majorOpcode i ∧ (encode i).extractLsb' 15 17 = 0

theorem EncodeShape.extmulS : EncodeShape.Statement .extmulS := by unfold EncodeShape.Statement; decide
theorem EncodeShape.extmulO : EncodeShape.Statement .extmulO := by unfold EncodeShape.Statement; decide
theorem EncodeShape.extmulI : EncodeShape.Statement .extmulI := by unfold EncodeShape.Statement; decide
theorem EncodeShape.draw32 : EncodeShape.Statement .draw32 := by unfold EncodeShape.Statement; decide
theorem EncodeShape.draw64 : EncodeShape.Statement .draw64 := by unfold EncodeShape.Statement; decide
theorem EncodeShape.touns (w sg : Bool) : EncodeShape.Statement (.touns w sg) := by
  unfold EncodeShape.Statement; revert w sg; decide
theorem EncodeShape.tosgn (w sg : Bool) : EncodeShape.Statement (.tosgn w sg) := by
  unfold EncodeShape.Statement; revert w sg; decide
theorem EncodeShape.newgenNR (mul : BitVec 2) (w sg chk : Bool) :
    EncodeShape.Statement (.newgenNR mul w sg chk) := by
  unfold EncodeShape.Statement; revert mul w sg chk; decide
theorem EncodeShape.newgenRU (mul : BitVec 2) (w sg chk : Bool) :
    EncodeShape.Statement (.newgenRU mul w sg chk) := by
  unfold EncodeShape.Statement; revert mul w sg chk; decide
theorem EncodeShape.newgenLZ (mul : BitVec 2) (w sg chk : Bool) :
    EncodeShape.Statement (.newgenLZ mul w sg chk) := by
  unfold EncodeShape.Statement; revert mul w sg chk; decide
theorem EncodeShape.next : EncodeShape.Statement .next := by unfold EncodeShape.Statement; decide
theorem EncodeShape.rdreg (reg : BitVec 4) : EncodeShape.Statement (.rdreg reg) := by
  unfold EncodeShape.Statement; revert reg; decide

end Sys2Proof.Laws
end

