-- ==== Sys2Proof/Tests/Slice0.lean ====
section
/-! SUPPORT. The model's own tests: words written out from the spec's encoding and decoded, ill-formed terms that the checks
refuse, one small step or draw per command from the spec's vectors (95_test_vectors), and for every statement with hypotheses
a concrete state and operands that meet them. -/

namespace Sys2Proof.Tests

open Sys2Proof Sys2Proof.Machine

/-! ## Well-formedness: one ill-formed term per check -/

theorem test_wf_refuses_mul3_nr : ¬WellFormed (.newgenNR 3 true false true) := by decide
theorem test_wf_refuses_mul3_ru : ¬WellFormed (.newgenRU 3 false false true) := by decide
theorem test_wf_refuses_mul3_lz : ¬WellFormed (.newgenLZ 3 false true false) := by decide
theorem test_wf_refuses_registers :
    ∀ n : BitVec 4, n.toNat ∈ [6, 7, 11, 12, 13, 14, 15] → ¬WellFormed (.rdreg n) := by decide

/-! ## Decoding: words written out bit by bit from R71 (zero, reg, chk, sg, w, var, mul, op) -/

theorem test_decode_extmul :
    decode 0b00000000000000000_0000_0_0_0_00_00_0001 = .ok .extmulS ∧
    decode 0b00000000000000000_0000_0_0_0_00_01_0001 = .ok .extmulO ∧
    decode 0b00000000000000000_0000_0_0_0_00_10_0001 = .ok .extmulI := by decide
theorem test_decode_draw :
    decode 0b00000000000000000_0000_0_0_0_00_00_0010 = .ok .draw32 ∧
    decode 0b00000000000000000_0000_0_0_1_00_00_0010 = .ok .draw64 := by decide
theorem test_decode_transposition :
    decode 0b00000000000000000_0000_0_1_0_00_00_0011 = .ok (.touns false true) ∧
    decode 0b00000000000000000_0000_0_0_1_00_00_0100 = .ok (.tosgn true false) := by decide
theorem test_decode_newgen :
    decode 0b00000000000000000_0000_1_1_0_00_00_0101 = .ok (.newgenNR 0 false true true) ∧
    decode 0b00000000000000000_0000_1_0_0_01_10_0101 = .ok (.newgenRU 2 false false true) ∧
    decode 0b00000000000000000_0000_0_1_1_10_01_0101 = .ok (.newgenLZ 1 true true false) := by decide
theorem test_decode_next_rdreg :
    decode 0b00000000000000000_0000_0_0_0_00_00_0110 = .ok .next ∧
    decode 0b00000000000000000_1010_0_0_0_00_00_0111 = .ok (.rdreg 10) := by decide
/-- 95_test_vectors V60 to V79c: illegal on every instance and in every state. -/
theorem test_decode_illegal :
    ([0x00000000, 0xFFFFFFFF, 0x00000008, 0x0000000F, 0x00000031, 0x00000101, 0x00000041, 0x00000012,
      0x00000202, 0x00000403, 0x00000013, 0x00000805, 0x000004C5, 0x00000475, 0x00000106, 0x00003007,
      0x00003807, 0x00005807, 0x00007807, 0x00000107, 0x00008006, 0x80000001, 0x00010005] :
        List CmdWord).all (fun c => (decode c).toOption.isNone) = true := by decide
theorem test_table_word : decodeTableWord 32 0x785 = some (.newgenLZ 0 true true true) := by decide

/-! ## Small states -/

/-- A core with the given parameters, a command on the port and words from the engine. -/
def core0 (engw : Width) (wide : Bool) (op0 op1 : Word) (words : List Word) : State :=
  State.resetCore { engw := engw, hasWideMul := wide } { cmd := 0, op0 := op0, op1 := op1 } []
    { given := words, live := false, pos := 0 }

/-- A core with a generator bound: images, distance, threshold, `THRV`, `CFG`. -/
def bound (a b dist thr : Word) (thrv : Bool) (cfg : Word) (engw : Width) (words : List Word) : State :=
  { core0 engw true 0 0 words with
    a := a, b := b, dist := dist, thr := thr, thrv := thrv, gv := true, cfg := cfg }

/-- The same in the middle of a NEXT, with a complete draw. -/
def evaluating (s : State) (draw : Word) : State :=
  { s with phase := .eval, cur := .nextop, cw := s.cfgWidth, acc := draw }

/-- What a result answers: error code and both results. -/
def answer (r : Result) : Option (ErrCode × Word × Word) :=
  (nextOf r).map fun s => (s.rsp.err, s.rsp.res0, s.rsp.res1)

/-! ## Extended multiply (vectors V3, V10, V15, V13, V16) -/

theorem test_extmulS :
    answer (exec .extmulS (core0 .w32 true 0x0123456789ABCDEF 0xFEDCBA9876543210 [])) =
      some (.ok, 0x2236D88FE5618CF0, 0x0121FA00AD77D742) := by decide
theorem test_extmulS_largest :
    answer (exec .extmulS (core0 .w64 false 0xFFFFFFFFFFFFFFFF 0xFFFFFFFFFFFFFFFF [])) =
      some (.ok, 1, 0xFFFFFFFFFFFFFFFE) := by decide
theorem test_extmulO :
    answer (exec .extmulO (core0 .w32 true 0xFFFFFFFF00000000 0x00000000FFFFFFFF [])) =
      some (.ok, 0x0000000100000000, 0x00000000FFFFFFFE) := by decide
theorem test_extmulO_largest :
    answer (exec .extmulO (core0 .w32 true 0xFFFFFFFFFFFFFFFF 0xFFFFFFFFFFFFFFFF [])) =
      some (.ok, 1, 0xFFFFFFFFFFFFFFFE) := by decide
theorem test_extmulI :
    answer (exec .extmulI (core0 .w32 true 0x8000000000000000 0x8000000000000000 [])) =
      some (.ok, 0, 0x4000000000000000) := by decide
theorem test_extmulI_without : answer (exec .extmulI (core0 .w32 false 3 5 [])) = some (.cap, 0, 0) := by decide

/-! ## Draws (vectors V21, V22): the command, its words, the evaluation -/

theorem test_draw32 :
    answer (runFor 3 ((core0 .w64 true 0 0 [0xDEADBEEFCAFEBABE]).withFetchWord 32 0x002)) =
      some (.ok, 0x00000000CAFEBABE, 0) := by decide
theorem test_draw64 :
    answer (runFor 4 ((core0 .w32 true 0 0 [0x01234567, 0x89ABCDEF]).withFetchWord 32 0x102)) =
      some (.ok, 0x0123456789ABCDEF, 0) := by decide

/-! ## Transposition (vectors V30, V31, V34, V36) -/

theorem test_touns_s32 :
    answer (exec (.touns false true) (core0 .w32 true 0xFFFFFFFFFFFFFFFF 0 [])) =
      some (.ok, 0x7FFFFFFF, 0) := by decide
theorem test_touns_s64 :
    answer (exec (.touns true true) (core0 .w32 true 0xFFFFFFFFFFFFFFFD 0 [])) =
      some (.ok, 0x7FFFFFFFFFFFFFFD, 0) := by decide
theorem test_tosgn_s32 :
    answer (exec (.tosgn false true) (core0 .w32 true 0x7FFFFFFF 0 [])) =
      some (.ok, 0xFFFFFFFF, 0) := by decide
theorem test_tosgn_u32 :
    answer (exec (.tosgn false false) (core0 .w32 true 0x1234567890ABCDEF 0 [])) =
      some (.ok, 0x90ABCDEF, 0) := by decide

/-! ## Construction (43_generator R154, R155, R156; vectors V81, V85) -/

/-- What a NEWGEN leaves: A, B, DIST, THR, THRV, CFG. -/
def leaves (r : Result) : Option (Word × Word × Word × Word × Bool × Word) :=
  (nextOf r).map fun s => (s.a, s.b, s.dist, s.thr, s.thrv, s.cfg)

theorem test_newgenNR :
    leaves (exec (.newgenNR 0 false true true) (core0 .w32 true 5 5 [])) =
      some (0x80000005, 0x80000005, 1, 0, false, 0x200) := by decide
theorem test_newgenNR_full :
    leaves (exec (.newgenNR 0 false true true) (core0 .w64 true 0x80000000 0x7FFFFFFF [])) =
      some (0, 0xFFFFFFFF, 0, 0, false, 0x200) := by decide
theorem test_newgenRU :
    leaves (exec (.newgenRU 0 false false true) (core0 .w32 true 0xAAAAAAAA00000000 0xBBBBBBBBFFFFFFFE [])) =
      some (0, 0xFFFFFFFE, 0xFFFFFFFF, 1, true, 0x040) := by decide
theorem test_newgenRU_cap_before_range :
    answer (exec (.newgenRU 2 false false true) (core0 .w32 false 22 7 [])) = some (.cap, 0, 0) := by decide
theorem test_newgenLZ :
    leaves (exec (.newgenLZ 0 true true true) (core0 .w32 true 0xFFFFFFFFFFFFFFFD 5 [])) =
      some (0x7FFFFFFFFFFFFFFD, 0x8000000000000005, 9, 0, false, 0x380) := by decide
theorem test_newgenLZ_range :
    answer (exec (.newgenLZ 0 false true true) (core0 .w32 true 1 0xFFFFFFFF [])) = some (.range, 0, 0) := by
  decide

/-! ## Samples (program P3 commands 2 and 4; vector V40) -/

theorem test_next_rejects_twice :
    (nextOf (runFor 10 ((bound 0x7FFFFFFFFFFFFFFD 0x8000000000000005 9 0 false 0x380 .w32
      [0, 0, 0x1C71C71C, 0x71C71C72, 0x80000000, 0]).withFetchWord 32 0x006))).map
        (fun s => (s.rsp.res0, s.upper, s.lower, s.thr, s.thrv, s.engine.pos)) =
      some (1, 4, 0x8000000000000000, 7, true, 6) := by decide
theorem test_next_full_width :
    answer (runFor 3 ((bound 0 0xFFFFFFFF 0 0 false 0x200 .w64 [0xDEADBEEFCAFEBABE]).withFetchWord 32 0x006)) =
      some (.ok, 0x4AFEBABE, 0) := by decide

/-! ## Read-out (44_system R190) and the step that answers an illegal word -/

theorem test_rdreg_status : answer (exec (.rdreg 9) (bound 7 22 16 0 true 0x40 .w32 [])) = some (.ok, 3, 0) := by
  decide
theorem test_rdreg_cap : answer (exec (.rdreg 10) (core0 .w64 false 0 0 [])) = some (.ok, 2, 0) := by decide
theorem test_illegal_word : answer (step (State.reset.withFetchWord 32 0)) = some (.illegal, 0, 0) := by decide

/-! ## Witnesses: states and operands that meet the hypotheses of the statements -/

/-- A NEWGEN.RU of [7, 22] waits as the host's next move. -/
def issuing (cmd : CmdWord) (op0 op1 : Word) : State :=
  { core0 .w32 true 0 0 [] with host := [.issue { cmd := cmd, op0 := op0, op1 := op1 }] }

/-- A response of NEWGEN waits to be taken. -/
def answered (moves : List HostMove) : State :=
  { bound 7 22 16 0 true 0x40 .w32 [] with rspv := true, host := moves }

/-- The invariant of a concrete state, clause by clause. -/
theorem inv_bound : (bound 7 22 16 0 true 0x40 .w32 [0x80000000]).Inv := by
  refine ⟨⟨?_, ?_, ?_, ?_, ?_, ?_, ?_⟩, ?_, ?_, ?_, ?_⟩ <;> decide
theorem inv_evaluating : (evaluating (bound 7 22 16 0 true 0x40 .w32 []) 0x80000000).Inv := by
  refine ⟨⟨?_, ?_, ?_, ?_, ?_, ?_, ?_⟩, ?_, ?_, ?_, ?_⟩ <;> decide
theorem inv_answered_take : (answered [.take]).Inv := by
  refine ⟨⟨?_, ?_, ?_, ?_, ?_, ?_, ?_⟩, ?_, ?_, ?_, ?_⟩ <;> decide
theorem inv_answered_reset : (answered [.reset]).Inv := by
  refine ⟨⟨?_, ?_, ?_, ?_, ?_, ?_, ?_⟩, ?_, ?_, ?_, ?_⟩ <;> decide
theorem inv_answered_issue : (answered [.issue { cmd := 6, op0 := 0, op1 := 0 }]).Inv := by
  refine ⟨⟨?_, ?_, ?_, ?_, ?_, ?_, ?_⟩, ?_, ?_, ?_, ?_⟩ <;> decide
/-- [0, 2] of 32 bits, lazy, one rejecting word and one accepted word to come. -/
def lazy3 : State := bound 0 2 3 0 false 0x80 .w32 [0, 0x55555555]
theorem inv_lazy3 : lazy3.Inv := by
  refine ⟨⟨?_, ?_, ?_, ?_, ?_, ?_, ?_⟩, ?_, ?_, ?_, ?_⟩ <;> decide
/-- The whole unsigned domain of 32 bits, lazy. -/
def fullLazy : State := bound 0 0xFFFFFFFF 0 0 false 0x80 .w32 [0xCAFEBABE]
theorem inv_full : fullLazy.Inv := by
  refine ⟨⟨?_, ?_, ?_, ?_, ?_, ?_, ?_⟩, ?_, ?_, ?_, ?_⟩ <;> decide
theorem inv_issuing_unchecked : (issuing 0x00000045 22 7).Inv := by
  refine ⟨⟨?_, ?_, ?_, ?_, ?_, ?_, ?_⟩, ?_, ?_, ?_, ?_⟩ <;> decide
theorem afterReset_reset : State.reset.AfterReset := by
  refine ⟨?_, ?_, ?_, ?_, ?_, ?_, ?_⟩ <;> decide
theorem inv_reset : State.reset.Inv := by
  refine ⟨⟨?_, ?_, ?_, ?_, ?_, ?_, ?_⟩, ?_, ?_, ?_, ?_⟩ <;> decide

theorem witness_ResetStepLeavesSpecValues :
    ∃ (s : State) (rest : List HostMove), s.phase = .eval ∧ s.host = .reset :: rest :=
  ⟨{ evaluating (bound 7 22 16 0 true 0x40 .w32 []) 1 with host := [.reset] }, [], by decide, by decide⟩
theorem witness_StateAfterResetMeetsInvariant : ∃ s : State, s.AfterReset := ⟨State.reset, afterReset_reset⟩
theorem witness_StepKeepsInvariant :
    ∃ s t : State, s.Inv ∧ step s = .next t ∧ t.rspv = true :=
  ⟨evaluating (bound 7 22 16 0 true 0x40 .w32 []) 0x80000000, _, inv_evaluating, rfl, by decide⟩
theorem witness_ReachableStatesMeetR41 :
    ∃ (s t : State) (k : Nat), s.AfterReset ∧ runFor k s = .next t ∧ t.gv = true :=
  ⟨issuing 0x00000445 7 22, _, 1, by refine ⟨?_, ?_, ?_, ?_, ?_, ?_, ?_⟩ <;> decide, rfl, by decide⟩
theorem witness_StepStopsOnlyOnUncheckedRange :
    ∃ s : State, s.Inv ∧ step s = .refused .uncheckedRange :=
  ⟨issuing 0x00000045 22 7, inv_issuing_unchecked, rfl⟩
theorem witness_DecodeOfEncodeGivesCommand : WellFormed (.newgenLZ 2 true true false) := by decide
theorem witness_EncodeOfDecodeGivesWord : decode 0x00005007 = .ok (.rdreg 10) := by decide
theorem witness_StepRunsDecodedCommand :
    ∃ (s : State) (c : Command) (rest : List HostMove) (i : Instr),
      s.issueEnabled ∧ s.host = .issue c :: rest ∧ decode c.cmd = .ok i :=
  ⟨issuing 0x00000445 7 22, { cmd := 0x00000445, op0 := 7, op1 := 22 }, [], .newgenRU 0 false false true,
    by decide, by decide, by decide⟩
theorem witness_IllegalWordsAnsweredWithoutEffect :
    (∃ (s : State) (c : Command), s.issueEnabled ∧ s.host = [.issue c] ∧ IllegalWord c.cmd) ∧
    (∃ (s t : State) (c : Command), s.issueEnabled ∧ s.host = [.issue c] ∧ ¬IllegalWord c.cmd ∧
      step s = .next t ∧ t.rspv = true) :=
  ⟨⟨issuing 0x00000106 0 0, _, by decide, rfl, by unfold IllegalWord; decide⟩,
    ⟨issuing 0x00000445 7 22, _, _, by decide, rfl, by unfold IllegalWord; decide, rfl, by decide⟩⟩
theorem witness_ErrorsWriteNothingElse :
    ∃ s t : State, step s = .next t ∧ s.rspv = false ∧ t.rspv = true ∧ t.rsp.err ≠ .ok :=
  ⟨issuing 0x00000445 22 7, _, rfl, by decide, by decide, by decide⟩
/-- One state per clause: illegal, capability, range, no generator, none. -/
theorem witness_ErrorPriorityOrder :
    IllegalWord 0x00000106 ∧
    (∃ i, decode 0x00000465 = .ok i ∧ SelectsIntrinsic i) ∧
    (∃ i, decode 0x00000465 = .ok i ∧ RangeViolated true { cmd := 0x00000465, op0 := 22, op1 := 7 } i) ∧
    (decode 0x00000006 = .ok .next ∧ (issuing 0x00000006 0 0).gv = false) ∧
    (∃ i, decode 0x00000445 = .ok i ∧ ¬SelectsIntrinsic i ∧
      ¬RangeViolated true { cmd := 0x00000445, op0 := 7, op1 := 7 } i) ∧
    (issuing 0x00000445 7 7).issueEnabled :=
  ⟨by unfold IllegalWord; decide, ⟨.newgenRU 2 false false true, by decide, by decide⟩,
    ⟨.newgenRU 2 false false true, by decide, by decide⟩, ⟨by decide, by decide⟩,
    ⟨.newgenRU 0 false false true, by decide, by decide, by decide⟩, by decide⟩
theorem witness_FailedCommandFailsAgain :
    ∃ s t : State, s.rspv = false ∧ exec .next s = .next t ∧ t.rspv = true ∧ t.rsp.err ≠ .ok :=
  ⟨core0 .w32 true 0 0 [], _, by decide, rfl, by decide, by decide⟩
theorem witness_CapabilityErrorExactlyWhenUnsupported :
    ∃ s t : State, s.par.hasWideMul = false ∧ s.rspv = false ∧ exec .extmulI s = .next t ∧
      t.rspv = true ∧ t.rsp.err = .cap ∧ s.AfterReset :=
  ⟨core0 .w32 false 3 5 [], _, by decide, by decide, rfl, by decide, by decide,
    by refine ⟨?_, ?_, ?_, ?_, ?_, ?_, ?_⟩ <;> decide⟩
theorem witness_RangeErrorExactlyWhenLowAboveHigh :
    (∃ s t : State, RangeViolated true s.bus (.newgenRU 0 false true true) ∧
      exec (.newgenRU 0 false true true) s = .next t ∧ s.rspv = false ∧ t.rspv = true ∧
      t.rsp.err = .range) ∧
    (∃ s : State, RangeViolated false s.bus (.newgenNR 2 true false false) ∧ s.par.hasWideMul = true) :=
  ⟨⟨core0 .w32 true 1 0xFFFFFFFF [], _, by decide, rfl, by decide, by decide, by decide⟩,
    ⟨core0 .w32 true 22 7 [], by decide, by decide⟩⟩
theorem witness_NextWithoutGeneratorFails : State.reset.gv = false ∧ State.reset.AfterReset :=
  ⟨by decide, afterReset_reset⟩
theorem witness_ExtmulLawsAtBothWidths :
    (0xFFFFFFFF : Word).toNat < 2 ^ Width.w32.bits ∧ (0x80000000 : Word).toNat < 2 ^ Width.w32.bits ∧
    1 ≤ (0x80000000 : Word).toNat ∧ 31 < Width.w32.bits ∧ (0x80000000 : Word).toNat = 2 ^ 31 := by decide
theorem witness_ExtmulCommandsStoreAndReturnProduct : (core0 .w32 true 3 5 []).par.hasWideMul = true := by decide
theorem witness_EngineStepFoldsOneWord :
    (∃ s : State, s.phase = .fill ∧ s.engineAnswers 1 ∧ s.cnt = 1) ∧
    (∃ s : State, s.phase = .fill ∧ s.engineAnswers 1 ∧ s.cnt = 2) ∧
    (∃ s : State, s.phase = .fill ∧ ¬s.engineAnswers 1) :=
  ⟨⟨(core0 .w64 true 0 0 [1]).startDraw .w64, by decide, by decide, by decide⟩,
    ⟨(core0 .w32 true 0 0 [1]).startDraw .w64, by decide, by decide, by decide⟩,
    ⟨(core0 .w32 true 0 0 []).startDraw .w64, by decide, by decide⟩⟩
theorem witness_CompletedDrawFollowsAdapterCases :
    ∃ s : State, s.host = [] ∧ s.engineAnswers (wordsPerDraw s.par.engw .w64).val ∧ s.par.engw = .w32 :=
  ⟨core0 .w32 true 0 0 [1, 2], by decide, by decide, by decide⟩
theorem witness_DrawCommandsReturnTheDraw :
    ∃ s : State, s.host = [] ∧ s.engineAnswers (wordsPerDraw s.par.engw .w32).val :=
  ⟨core0 .w64 true 0 0 [1], by decide, by decide⟩
theorem witness_SilentEngineLeavesCoreWaiting :
    ∃ s : State, s.phase = .fill ∧ ¬s.engineAnswers 1 ∧ s.host = [] :=
  ⟨(core0 .w32 true 0 0 []).startDraw .w64, by decide, by decide, by decide⟩
theorem witness_EngineAdvancesOnlyByEngineStep :
    ∃ s t : State, step s = .next t ∧ s.phase = .fill ∧ t.engine.pos = s.engine.pos + 1 :=
  ⟨(core0 .w32 true 0 0 [1, 2]).startDraw .w64, _, rfl, by decide, by decide⟩
theorem witness_TranspositionPreservesOrder :
    (0x80000000 : Word).toNat < 2 ^ Width.w32.bits ∧ (0x7FFFFFFF : Word).toNat < 2 ^ Width.w32.bits := by decide
theorem witness_SignedImageOffsetIsWrappingSum : (0xFFFFFFFF : Word).toNat < 2 ^ Width.w32.bits := by decide
theorem witness_NewgenBindsGenerator :
    ∃ s : State, (2 : BitVec 2) ≠ 3 ∧ s.par.hasWideMul = true ∧
      callerValue .w64 true (low .w64 s.bus.op0) ≤ callerValue .w64 true (low .w64 s.bus.op1) :=
  ⟨core0 .w32 true 0xFFFFFFFFFFFFFFFD 5 [], by decide, by decide, by decide⟩
theorem witness_ThresholdFunctionFacts :
    1 ≤ (0xFFFFFFFF : Word).toNat ∧ (0xFFFFFFFF : Word).toNat < 2 ^ Width.w32.bits := by decide
theorem witness_NextStartsDrawAndRefreshesNoReuse :
    (bound 5 5 1 0 true 0x200 .w32 []).gv = true ∧ (bound 5 5 1 0 true 0x200 .w32 []).cfgVar = 0 := by decide
theorem witness_FullWidthNextReturnsDraw :
    ∃ s : State, s.phase = .eval ∧ s.cur = .nextop ∧ s.dist = 0 ∧ s.cfgSigned = true :=
  ⟨evaluating (bound 0 0xFFFFFFFF 0 0 false 0x200 .w64 []) 0xCAFEBABE, by decide, by decide, by decide, by decide⟩

/-- A draw `r` of the lazy [0, 2] generator while it is evaluated. -/
def scaling (r : Word) : State := evaluating (bound 0 2 3 0 false 0x80 .w32 []) r
/-- Fast accept, accept after computing the threshold, reject: one draw of [0, 2] each. -/
theorem witness_NextScalesAndDecidesOnDraw :
    ((scaling 0x55555555).Inv ∧ (scaling 0x55555555).phase = .eval ∧ (scaling 0x55555555).cur = .nextop ∧
      (scaling 0x55555555).dist ≠ 0 ∧ (scaling 0x55555555).thrv = false ∧ 3 ≤ 0x55555555 * 3 % 2 ^ 32) ∧
    ((scaling 0x55555556).Inv ∧ 0x55555556 * 3 % 2 ^ 32 < 3 ∧ 2 ^ 32 % 3 ≤ 0x55555556 * 3 % 2 ^ 32) ∧
    ((scaling 0).Inv ∧ 0 * 3 % 2 ^ 32 < 3 ∧ 0 * 3 % 2 ^ 32 < 2 ^ 32 % 3) :=
  ⟨⟨by refine ⟨⟨?_, ?_, ?_, ?_, ?_, ?_, ?_⟩, ?_, ?_, ?_, ?_⟩ <;> decide, by decide, by decide,
      by decide, by decide, by decide⟩,
    ⟨by refine ⟨⟨?_, ?_, ?_, ?_, ?_, ?_, ?_⟩, ?_, ?_, ?_, ?_⟩ <;> decide, by decide, by decide⟩,
    ⟨by refine ⟨⟨?_, ?_, ?_, ?_, ?_, ?_, ?_⟩, ?_, ?_, ?_, ?_⟩ <;> decide, by decide, by decide⟩⟩
theorem witness_NextMeetsBigStepSummary :
    (lazy3.Inv ∧ lazy3.issueEnabled ∧ lazy3.gv = true ∧ lazy3.host = [] ∧ lazy3.dist.toNat ≠ 0 ∧
      lazy3.engineAnswers ((1 + 1) * (wordsPerDraw lazy3.par.engw lazy3.cfgWidth).val) ∧
      (lazy3.drawAt lazy3.cfgWidth 0).toNat * 3 % 2 ^ 32 < 2 ^ 32 % 3 ∧
      2 ^ 32 % 3 ≤ (lazy3.drawAt lazy3.cfgWidth 1).toNat * 3 % 2 ^ 32) ∧
    (fullLazy.Inv ∧ fullLazy.issueEnabled ∧ fullLazy.gv = true ∧ fullLazy.host = [] ∧
      fullLazy.dist.toNat = 0 ∧
      fullLazy.engineAnswers (wordsPerDraw fullLazy.par.engw fullLazy.cfgWidth).val) :=
  ⟨⟨inv_lazy3, by decide, by decide, by decide, by decide, by decide, by decide, by decide⟩,
    ⟨inv_full, by decide, by decide, by decide, by decide, by decide⟩⟩
theorem witness_NextKeepsDrawingWhileRejected :
    lazy3.Inv ∧ lazy3.issueEnabled ∧ lazy3.gv = true ∧ lazy3.host = [] ∧ lazy3.dist ≠ 0 ∧
    lazy3.engineAnswers (1 * (wordsPerDraw lazy3.par.engw lazy3.cfgWidth).val) ∧
    (lazy3.drawAt lazy3.cfgWidth (lazy3.engine.pos + 0 * 1)).toNat * lazy3.dist.toNat % 2 ^ 32 <
      2 ^ 32 % lazy3.dist.toNat :=
  ⟨inv_lazy3, by decide, by decide, by decide, by decide, by decide, by decide⟩
theorem witness_RejectionCountsMakeOffsetsEqual :
    1 ≤ (3 : Word).toNat ∧ (3 : Word).toNat < 2 ^ Width.w32.bits ∧ 2 < (3 : Word).toNat := by decide
/-- A power-of-two range, a range of one value, the whole domain. -/
theorem witness_SamplesStayInRangeAndCornerRanges :
    (∃ s t : State, s.Inv ∧ s.phase = .eval ∧ s.cur = .nextop ∧ s.dist.toNat = 2 ^ 4 ∧
      coreStep s = .next t ∧ t.rspv = true) ∧
    (∃ s : State, s.Inv ∧ s.phase = .eval ∧ s.cur = .nextop ∧ s.a = s.b) ∧
    (∃ s : State, s.Inv ∧ s.phase = .eval ∧ s.cur = .nextop ∧ s.dist = 0 ∧ s.cfgSigned = false) :=
  ⟨⟨evaluating (bound 7 22 16 0 true 0x40 .w32 []) 0x80000000, _, inv_evaluating, by decide, by decide,
      by decide, rfl, by decide⟩,
    ⟨evaluating (bound 5 5 1 0 false 0x80 .w32 []) 9,
      by refine ⟨⟨?_, ?_, ?_, ?_, ?_, ?_, ?_⟩, ?_, ?_, ?_, ?_⟩ <;> decide, by decide, by decide, by decide⟩,
    ⟨evaluating (bound 0 0xFFFFFFFF 0 0 false 0x80 .w32 []) 9,
      by refine ⟨⟨?_, ?_, ?_, ?_, ?_, ?_, ?_⟩, ?_, ?_, ?_, ?_⟩ <;> decide, by decide, by decide, by decide,
      by decide⟩⟩
theorem witness_VariantsAndStrategiesGiveSameSamples :
    ∃ s t₁ t₂ u₁ : State, s.Inv ∧ s.issueEnabled ∧
      exec (newgenOf .nr 2 false false true) s = .next t₁ ∧ t₁.rsp.err = .ok ∧
      exec (newgenOf .lz 0 false false true) s = .next t₂ ∧ t₂.rsp.err = .ok ∧
      runFor 4 { t₁ with host := [.take, .issue { cmd := 0x00000006, op0 := 0, op1 := 0 }] } = .next u₁ ∧
      u₁.rspv = true :=
  ⟨core0 .w32 true 7 22 [0x80000000], _, _, _,
    by refine ⟨⟨?_, ?_, ?_, ?_, ?_, ?_, ?_⟩, ?_, ?_, ?_, ?_⟩ <;> decide, by decide, rfl, by decide, rfl, by decide,
    rfl, by decide⟩
theorem witness_RdregReturnsNamedRegister : (6 : BitVec 4).toNat ∈ [6, 7, 11, 12, 13, 14, 15] := by decide
theorem witness_CapViewShowsParametersForLife :
    ∃ s t : State, step s = .next t ∧ s.host = [.reset] :=
  ⟨{ core0 .w64 false 0 0 [] with host := [.reset] }, _, rfl, by decide⟩
theorem witness_GeneratorValidOnlyBoundByNewgen :
    (∃ s t : State, step s = .next t ∧ s.gv = false ∧ t.gv = true) ∧
    (∃ s t : State, step s = .next t ∧ s.gv = true ∧ t.gv = false) :=
  ⟨⟨issuing 0x00000445 7 22, _, rfl, by decide, by decide⟩, ⟨answered [.reset], _, rfl, by decide, by decide⟩⟩
theorem witness_ResponseValidUntilTaken :
    ((answered [.take]).Inv ∧ (answered [.take]).rspv = true) ∧
    ((answered [.reset]).Inv ∧ (answered [.reset]).rspv = true) ∧
    ((answered [.issue { cmd := 6, op0 := 0, op1 := 0 }]).Inv) ∧
    (∃ s t : State, step s = .next t ∧ s.rspv = false ∧ t.rspv = true) :=
  ⟨⟨inv_answered_take, rfl⟩, ⟨inv_answered_reset, rfl⟩, inv_answered_issue,
    ⟨issuing 0x00000445 7 22, _, rfl, by decide, by decide⟩⟩
theorem witness_AtMostOneAgentEnabled : ∃ s : State, s.Inv ∧ s.evalEnabled :=
  ⟨_, inv_evaluating, rfl⟩
theorem witness_DataRegistersWrittenOnlyByTheirWriters :
    ∃ s t : State, step s = .next t ∧ t.upper ≠ s.upper ∧ s.phase = .eval :=
  ⟨evaluating (bound 7 22 16 0 true 0x40 .w32 []) 0x80000000, _, rfl, by decide, by decide⟩
theorem witness_UnreadOperandBitsHaveNoEffect :
    ∃ c c' : Command, c ≠ c' ∧ SameReadOperands c c' (.newgenRU 0 false false true) :=
  ⟨{ cmd := 0x445, op0 := 7, op1 := 22 }, { cmd := 0x445, op0 := 0xAAAAAAAA00000007, op1 := 0xBBBBBBBB00000016 },
    by decide, by decide⟩
theorem witness_DeadRegistersHaveNoEffect : ∃ s t : State, s ≠ t ∧ s.liveView = t.liveView :=
  ⟨core0 .w32 true 0 0 [], { core0 .w32 true 0 0 [] with acc := 5, cur := .nextop }, by decide, by decide⟩

end Sys2Proof.Tests
end

/-! # Proofs about the state: what a step can do -/

namespace Sys2Proof.Machine

/-! ## What a command can do

One predicate for step S1 and one for the rest of a step, each with a constructor per outcome; the
invariants and frames below are case splits along them. -/

@[simp] theorem exec_newgenOf (v : Variant) (mul : BitVec 2) (w sg chk : Bool) (s : State) :
    exec (newgenOf v mul w sg chk) s = newgen v mul w sg chk s := by
  cases v <;> rfl

/-- The image of a bound on the port: its low W bits, transposed (43_generator R151). -/
def boundImage (w sg : Bool) (op : Word) : Word := toUnsigned (widthOf w) sg (low (widthOf w) op)

/-- The next states of a command in step S1 (30_encoding R77), with the value of an answer left open. -/
inductive ExecEffect (s : State) : Instr → State → Prop
  /-- an error (60_exceptions R201) -/
  | fails {i : Instr} (e : ErrCode) (he : e ≠ .ok) : ExecEffect s i (s.raise e)
  /-- TOUNS, TOSGN and RDREG (42_transposition R137, R138; 44_system R190) -/
  | answers {i : Instr} (v : Word) : ExecEffect s i (s.respond .ok v 0)
  /-- EXTMUL (40_extmul R106) -/
  | multiplies {i : Instr} (p : Product) (hi : i = .extmulS ∨ i = .extmulO ∨ i = .extmulI) :
      ExecEffect s i ((s.setProduct p).respond .ok p.lower p.upper)
  /-- DRAW (41_adapter R126, R127) -/
  | draws {i : Instr} (w : Width) : ExecEffect s i (State.startDraw { s with cur := .drawop } w)
  /-- NEWGEN whose checks pass (43_generator R152) -/
  | binds (v : Variant) (mul : BitVec 2) (w sg chk : Bool) (hmul : mul ≠ 3)
      (hwide : mul = 2 → s.par.hasWideMul = true)
      (hle : boundImage w sg s.bus.op0 ≤ boundImage w sg s.bus.op1) :
      ExecEffect s (newgenOf v mul w sg chk)
        ((bindGenerator v mul w sg (boundImage w sg s.bus.op0) (boundImage w sg s.bus.op1) s).respond .ok 0 0)
  /-- NEXT with a generator bound (43_generator R158, R160) -/
  | samples (hgv : s.gv = true) :
      ExecEffect s .next (State.startDraw { refreshNoReuse s with cur := .nextop } s.cfgWidth)

theorem newgen_effect {v : Variant} {mul : BitVec 2} {w sg chk : Bool} {s t : State}
    (h : newgen v mul w sg chk s = .next t) : ExecEffect s (newgenOf v mul w sg chk) t := by
  obtain ⟨-, ht⟩ | ⟨-, -, ht⟩ | ⟨hmul, hwide, ⟨-, -, ht⟩ | ⟨-, -, ht⟩ | ⟨hle, ht⟩⟩ := newgen_cases h
  · cases ht; exact .fails .illegal nofun
  · cases ht; exact .fails .cap nofun
  · cases ht; exact .fails .range nofun
  · cases ht
  · cases ht; exact .binds v mul w sg chk hmul hwide hle

/-- Every next state of a command is one of its effects. -/
theorem exec_effect {i : Instr} {s t : State} (h : exec i s = .next t) : ExecEffect s i t := by
  cases i with
  | extmulS => cases h; exact .multiplies _ (.inl rfl)
  | extmulO => cases h; exact .multiplies _ (.inr (.inl rfl))
  | extmulI =>
    obtain ⟨-, ht⟩ | ⟨-, ht⟩ := execExtmulI_cases h
    · cases ht; exact .multiplies _ (.inr (.inr rfl))
    · cases ht; exact .fails .cap nofun
  | draw32 => cases h; exact .draws .w32
  | draw64 => cases h; exact .draws .w64
  | touns w sg => cases h; exact .answers _
  | tosgn w sg => cases h; exact .answers _
  | newgenNR mul w sg chk => exact newgen_effect (v := .nr) h
  | newgenRU mul w sg chk => exact newgen_effect (v := .ru) h
  | newgenLZ mul w sg chk => exact newgen_effect (v := .lz) h
  | next =>
    obtain ⟨-, ht⟩ | ⟨hgv, ht⟩ := execNext_cases h
    · cases ht; exact .fails .nogen nofun
    · cases ht; exact .samples hgv
  | rdreg reg =>
    obtain ⟨v, -, ht⟩ | ⟨-, ht⟩ := execRdreg_cases h
    · cases ht; exact .answers v
    · cases ht; exact .fails .illegal nofun

/-! ## What the core and the engine can do without the host -/

/-- The scaled draw of the evaluation of a NEXT (43_generator R163). -/
def State.scaledDraw (s : State) : Product :=
  extmulW s.cfgWidth (low s.cfgWidth s.acc) (low s.cfgWidth s.dist)

/-- The next states of the core and the engine (10_state R35): nothing is enabled, S2, or S3. The sample
an evaluation answers is left open here; `evalNext_cases` and `decideDraw_cases` give it. -/
inductive CoreEffect (s : State) : State → Prop
  /-- quiescent, or in FILL with a silent engine (70_reset R234, R241) -/
  | waits : CoreEffect s s
  /-- S2 with the last word of the draw (41_adapter R123) -/
  | lastWord (hp : s.phase = .fill) (hc : s.cnt = 1) :
      CoreEffect s { s with
        engine := s.engine.advance 1
        acc := foldWord s.par.engw s.cw s.acc (s.engineWordAt s.engine.pos)
        cnt := 0
        phase := .eval }
  /-- S2 with the first of two words (41_adapter R123) -/
  | firstWord (hp : s.phase = .fill) (hc : s.cnt = 2) :
      CoreEffect s { s with
        engine := s.engine.advance 1
        acc := foldWord s.par.engw s.cw s.acc (s.engineWordAt s.engine.pos)
        cnt := 1 }
  /-- S3 of a DRAW (41_adapter R124) -/
  | drawDone (hp : s.phase = .eval) (hc : s.cur = .drawop) : CoreEffect s (s.respond .ok s.acc 0)
  /-- S3 of a NEXT on the whole domain (43_generator R162) -/
  | wholeDomain (hp : s.phase = .eval) (hc : s.cur = .nextop) (v : Word) :
      CoreEffect s (s.respond .ok v 0)
  /-- S3 of a NEXT: fast accept (43_generator R164) -/
  | fastAccept (hp : s.phase = .eval) (hc : s.cur = .nextop) (v : Word) :
      CoreEffect s ((s.setProduct s.scaledDraw).respond .ok v 0)
  /-- S3 of a NEXT: accept by the threshold (43_generator R165, R166) -/
  | accepts (hp : s.phase = .eval) (hc : s.cur = .nextop) (hd : low s.cfgWidth s.dist ≠ 0) (v : Word) :
      CoreEffect s ((ensureThreshold (s.setProduct s.scaledDraw)).respond .ok v 0)
  /-- S3 of a NEXT: reject and draw again (43_generator R165) -/
  | rejects (hp : s.phase = .eval) (hc : s.cur = .nextop) (hd : low s.cfgWidth s.dist ≠ 0) :
      CoreEffect s ((ensureThreshold (s.setProduct s.scaledDraw)).startDraw s.cfgWidth)

theorem fillStep_effect {s t : State} (hp : s.phase = .fill) (h : fillStep s = .next t) :
    CoreEffect s t := by
  rw [fillStep_eq] at h
  split at h
  · obtain ⟨-, ht⟩ | ⟨hc, ht⟩ | ⟨hc, ht⟩ := acceptWord_cases h
    · cases ht
    · cases ht; exact .lastWord hp hc
    · cases ht; exact .firstWord hp hc
  · cases h; exact .waits

theorem evalNext_effect {s : State} (hp : s.phase = .eval) (hc : s.cur = .nextop) :
    CoreEffect s (evalNext s) := by
  obtain ⟨-, h⟩ | ⟨hd, h⟩ := evalNext_cases s
  · rw [h]; exact .wholeDomain hp hc _
  · rw [h]
    obtain ⟨-, h⟩ | ⟨-, -, h⟩ | ⟨-, -, h⟩ := decideDraw_cases s.scaledDraw (s.setProduct s.scaledDraw)
    · exact h ▸ .fastAccept hp hc _
    · exact h ▸ .accepts hp hc hd _
    · exact h ▸ .rejects hp hc hd

/-- Every next state of the core and the engine is one of their effects. -/
theorem coreStep_effect {s t : State} (h : coreStep s = .next t) : CoreEffect s t := by
  obtain ⟨-, ht⟩ | ⟨hp, ht⟩ | ⟨hp, hc, ht⟩ | ⟨hp, hc, ht⟩ := coreStep_cases h
  · cases ht; exact .waits
  · exact fillStep_effect hp ht.symm
  · cases ht; exact .drawDone hp hc
  · cases ht; exact evalNext_effect hp hc

/-! ## What a step can do -/

/-- The next states of a step (10_state R35): a move of the host, or the core and the engine, after a
`pass` or with the host's moves as they are. -/
inductive StepEffect (s : State) : State → Prop
  | resets (rest : List HostMove) (hh : s.host = .reset :: rest) :
      StepEffect s (State.coreReset { s with host := rest })
  | takes (rest : List HostMove) (hh : s.host = .take :: rest) (hv : s.rspv = true) :
      StepEffect s (State.takeResponse { s with host := rest })
  | illegal (c : Command) (rest : List HostMove) (hh : s.host = .issue c :: rest) (he : s.issueEnabled) :
      StepEffect s ((s.present c rest).raise .illegal)
  | command (c : Command) (rest : List HostMove) (i : Instr) (hh : s.host = .issue c :: rest)
      (he : s.issueEnabled) (hd : decode c.cmd = .ok i) {t : State} (ht : ExecEffect (s.present c rest) i t) :
      StepEffect s t
  | core (moves : List HostMove) {t : State} (ht : CoreEffect { s with host := moves } t) : StepEffect s t

/-- Every next state of a step is one of its effects. -/
theorem step_effect {s t : State} (h : step s = .next t) : StepEffect s t := by
  obtain ⟨rest, hh, ht⟩ | ⟨rest, hh, hv, ht⟩ | ⟨c, rest, hh, hr, ht⟩ | ⟨rest, hh, ht⟩ | ⟨-, ht⟩ :=
    step_cases h
  · cases ht; exact .resets rest hh
  · cases ht; exact .takes rest hh hv
  · have he : s.issueEnabled := (ready_iff s).mp hr
    obtain ⟨i, hd, hi⟩ | ⟨e, -, hi⟩ := runCommand_cases ht.symm
    · exact .command c rest i hh he hd (exec_effect hi.symm)
    · cases hi; exact .illegal c rest hh he
  · exact .core rest (coreStep_effect ht.symm)
  · exact .core s.host (coreStep_effect ht.symm)

end Sys2Proof.Machine

namespace Sys2Proof.Machine

/-! ## The words of a generator -/

/-- The image of a W-bit pattern has W bits (42_transposition R135). -/
theorem toUnsigned_lt {w : Width} {v : Word} (sg : Bool) (h : v.toNat < 2 ^ w.bits) :
    (toUnsigned w sg v).toNat < 2 ^ w.bits := by
  have hs : (sbit w).toNat < 2 ^ w.bits := by cases w <;> decide
  cases sg
  · exact h
  · rw [toUnsigned_signed, BitVec.toNat_xor]
    exact Nat.xor_lt_two_pow h hs

theorem boundImage_lt (w sg : Bool) (op : Word) : (boundImage w sg op).toNat < 2 ^ (widthOf w).bits :=
  toUnsigned_lt sg (low_lt _ _)

/-- The threshold function is `2^W mod d` (43_generator R153). -/
theorem thrW_toNat {w : Width} {d : Word} (h0 : d ≠ 0) (hd : d.toNat < 2 ^ w.bits) :
    (thrW w d).toNat = 2 ^ w.bits % d.toNat := by
  have hpos : 0 < d.toNat := Nat.pos_of_ne_zero fun h => h0 (BitVec.eq_of_toNat_eq h)
  have hneg : (negW w d).toNat = 2 ^ w.bits - d.toNat := by
    rw [negW_toNat]
    cases w <;> simp only [Width.bits_w32, Width.bits_w64] at hd ⊢ <;> omega
  rw [thrW, BitVec.toNat_umod, hneg, ← Nat.mod_eq_sub_mod hd.le]

/-- The threshold has W bits where the distance has. -/
theorem thrW_lt {w : Width} {d : Word} (h0 : d ≠ 0) (hd : d.toNat < 2 ^ w.bits) :
    (thrW w d).toNat < 2 ^ w.bits := by
  have hpos : 0 < d.toNat := Nat.pos_of_ne_zero fun h => h0 (BitVec.eq_of_toNat_eq h)
  rw [thrW_toNat h0 hd]
  exact (Nat.mod_lt _ hpos).trans hd

theorem addW_lt (w : Width) (x y : Word) : (addW w x y).toNat < 2 ^ w.bits := low_lt _ _

theorem hi32_eq_zero_of_lt {v : Word} (h : v.toNat < 2 ^ Width.w32.bits) : hi32 v = 0 :=
  (hi32_eq_zero_iff v).mpr h

theorem thresholdAtBind_ru {w : Width} {d : Word} (h : d ≠ 0) :
    thresholdAtBind .ru w d = (thrW w d, true) := if_neg h

/-- NEWGEN knows the threshold exactly in the reuse variant with a non-zero distance (R154 to R156). -/
theorem thresholdAtBind_known_iff (v : Variant) (w : Width) (d : Word) :
    (thresholdAtBind v w d).2 = true ↔ v = .ru ∧ d ≠ 0 := by
  cases v with
  | nr => simp [thresholdAtBind]
  | lz => simp [thresholdAtBind]
  | ru =>
    by_cases h : d = 0
    · simp [thresholdAtBind, h]
    · rw [thresholdAtBind_ru h]
      exact ⟨fun _ => ⟨rfl, h⟩, fun _ => rfl⟩

theorem thresholdAtBind_lt (v : Variant) {w : Width} {d : Word} (hd : d.toNat < 2 ^ w.bits) :
    (thresholdAtBind v w d).1.toNat < 2 ^ w.bits := by
  by_cases h : v = .ru ∧ d ≠ 0
  · obtain ⟨rfl, h0⟩ := h
    rw [thresholdAtBind_ru h0]
    exact thrW_lt h0 hd
  · have hz : (thresholdAtBind v w d).1 = 0 := by
      cases v <;> simp_all [thresholdAtBind]
    rw [hz]
    exact Nat.two_pow_pos _

theorem Variant.code_injective {v v' : Variant} (h : v.code = v'.code) : v = v' := by
  revert h
  cases v <;> cases v' <;> decide

/-! ## The generator's part of the invariant

The clauses (c) to (g) of R41 and the one on `CFG` speak of eight registers only, so they pass through
every update that leaves those alone; the other clauses speak of the sequencer. -/

/-- The clauses of the invariant that speak of the bound generator. -/
structure State.GeneratorInv (s : State) : Prop where
  distOfRange : s.gv = true → s.dist = addW s.cfgWidth (subW s.cfgWidth s.b s.a) 1 ∧ s.a ≤ s.b
  thresholdOfDist : s.thrv = true →
    s.gv = true ∧ s.dist ≠ 0 ∧ s.thr.toNat = 2 ^ s.cfgWidth.bits % s.dist.toNat
  reuseThreshold : s.gv = true → s.cfgVar = Variant.ru.code → s.dist ≠ 0 → s.thrv = true
  narrowRegisters : s.gv = true → s.cfg.getLsbD 8 = false →
    hi32 s.a = 0 ∧ hi32 s.b = 0 ∧ hi32 s.dist = 0 ∧ hi32 s.thr = 0
  cfgLegal : s.cfgMul ≠ 3 ∧ s.cfgVar ≠ 3 ∧ (s.cfgMul = 2 → s.par.hasWideMul = true)
  cfgBits : s.cfg &&& 0x3F0 = s.cfg

theorem State.Inv.generatorInv {s : State} (h : s.Inv) : s.GeneratorInv :=
  { h with }

/-- The generator's clauses pass to every state with the same eight registers. -/
theorem State.GeneratorInv.congr {s t : State} (h : s.GeneratorInv) (ha : t.a = s.a := by rfl)
    (hb : t.b = s.b := by rfl) (hdist : t.dist = s.dist := by rfl) (hthr : t.thr = s.thr := by rfl)
    (hgv : t.gv = s.gv := by rfl) (hthrv : t.thrv = s.thrv := by rfl) (hcfg : t.cfg = s.cfg := by rfl)
    (hpar : t.par = s.par := by rfl) : t.GeneratorInv := by
  cases s; cases t
  dsimp only at ha hb hdist hthr hgv hthrv hcfg hpar
  subst ha hb hdist hthr hgv hthrv hcfg hpar
  exact { h with }

/-- In IDLE the generator's clauses are the whole invariant. -/
theorem State.GeneratorInv.inv_of_idle {s : State} (h : s.GeneratorInv) (hp : s.phase = .idle) : s.Inv :=
  { h with
    respIdle := fun _ => hp
    fillCount := fun hf => absurd (hp.symm.trans hf) nofun
    evalCount := fun he => absurd (hp.symm.trans he) nofun
    nextBound := fun hbusy => absurd hp hbusy
    accNarrow := fun hbusy => absurd hp hbusy }

/-- A draw needs one or two words, and one where the engine is as wide as the draw (41_adapter R122). -/
theorem wordsPerDraw_bounds (engw w : Width) :
    1 ≤ (wordsPerDraw engw w).val ∧ (wordsPerDraw engw w).val ≤ 2 ∧
      (w.bits ≤ engw.bits → (wordsPerDraw engw w).val = 1) := by
  cases engw <;> cases w <;> decide

/-- A draw started for a DRAW, or for a NEXT at its generator's width, meets the invariant. -/
theorem State.GeneratorInv.inv_startDraw {s : State} (h : s.GeneratorInv) (hv : s.rspv = false) {w : Width}
    (hn : s.cur = .nextop → s.gv = true ∧ w = s.cfgWidth) : (s.startDraw w).Inv :=
  { h with
    respIdle := fun hr => absurd (hv.symm.trans hr) nofun
    fillCount := fun _ => wordsPerDraw_bounds _ _
    evalCount := nofun
    nextBound := fun _ => hn
    accNarrow := fun _ _ => by simp [hi32] }

/-! ## The generator's clauses under the operations that write its registers -/

/-- NEWGEN establishes the generator's clauses (43_generator R152 to R156). -/
theorem bindGenerator_generatorInv {v : Variant} {mul : BitVec 2} {w sg : Bool} {ua ub : Word} {s : State}
    (hmul : mul ≠ 3) (hwide : mul = 2 → s.par.hasWideMul = true) (hle : ua ≤ ub)
    (ha : ua.toNat < 2 ^ (widthOf w).bits) (hb : ub.toNat < 2 ^ (widthOf w).bits) :
    (bindGenerator v mul w sg ua ub s).GeneratorInv where
  distOfRange := fun _ => ⟨by simp, hle⟩
  thresholdOfDist := by
    intro ht
    obtain ⟨rfl, h0⟩ := (thresholdAtBind_known_iff _ _ _).mp ht
    refine ⟨rfl, h0, ?_⟩
    rw [bindGenerator_thr, thresholdAtBind_ru h0, bindGenerator_cfgWidth, bindGenerator_dist]
    exact thrW_toNat h0 (addW_lt _ _ _)
  reuseThreshold := by
    intro _ hv h0
    rw [bindGenerator_cfgVar] at hv
    exact (thresholdAtBind_known_iff _ _ _).mpr ⟨Variant.code_injective hv, h0⟩
  narrowRegisters := by
    intro _ hw
    rw [bindGenerator_cfg, cfgWord_w] at hw
    subst hw
    exact ⟨hi32_eq_zero_of_lt ha, hi32_eq_zero_of_lt hb, hi32_eq_zero_of_lt (addW_lt .w32 _ _),
      hi32_eq_zero_of_lt (thresholdAtBind_lt v (addW_lt .w32 _ _))⟩
  cfgLegal := by
    rw [bindGenerator_cfgMul, bindGenerator_cfgVar]
    exact ⟨hmul, by cases v <;> decide, hwide⟩
  cfgBits := cfgWord_bits mul v w sg

/-- The no-reuse recomputation gives the distance back that NEWGEN stored (43_generator R160). -/
theorem State.GeneratorInv.refreshNoReuse_dist {s : State} (h : s.GeneratorInv) (hg : s.gv = true) :
    (refreshNoReuse s).dist = s.dist := by
  unfold refreshNoReuse
  split
  · exact (h.distOfRange hg).1.symm
  · rfl

/-- Forgetting the threshold keeps the generator's clauses, except in the reuse variant. -/
theorem State.GeneratorInv.forgetThreshold {s : State} (h : s.GeneratorInv)
    (hv : s.cfgVar ≠ Variant.ru.code) : State.GeneratorInv { s with thrv := false } :=
  { h with
    thresholdOfDist := nofun
    reuseThreshold := fun _ hr => absurd hr hv }

theorem State.GeneratorInv.refreshNoReuse {s : State} (h : s.GeneratorInv) (hg : s.gv = true) :
    (refreshNoReuse s).GeneratorInv := by
  have hdist := h.refreshNoReuse_dist hg
  unfold Machine.refreshNoReuse at hdist ⊢
  split
  · next hv =>
    rw [if_pos hv] at hdist
    exact (h.forgetThreshold (by rw [hv]; decide)).congr (hdist := hdist)
  · exact h

/-- The distance of a bound generator has W bits. -/
theorem State.GeneratorInv.dist_lt {s : State} (h : s.GeneratorInv) (hg : s.gv = true) :
    s.dist.toNat < 2 ^ s.cfgWidth.bits := by
  rw [(h.distOfRange hg).1]
  exact addW_lt _ _ _

/-- Computing the threshold of a bound generator keeps the generator's clauses (43_generator R164). -/
theorem State.GeneratorInv.ensureThreshold {s : State} (h : s.GeneratorInv) (hg : s.gv = true)
    (hd : low s.cfgWidth s.dist ≠ 0) : (ensureThreshold s).GeneratorInv := by
  have hlt := h.dist_lt hg
  rw [low_of_lt hlt] at hd
  unfold Machine.ensureThreshold
  split
  · exact h
  · rw [low_of_lt hlt]
    exact
      { h with
        thresholdOfDist := fun _ => ⟨hg, hd, thrW_toNat hd hlt⟩
        reuseThreshold := fun _ _ _ => rfl
        narrowRegisters := by
          intro _ hw
          obtain ⟨ha, hb, hdist, -⟩ := h.narrowRegisters hg hw
          have hwidth : s.cfgWidth = .w32 := congrArg widthOf hw
          refine ⟨ha, hb, hdist, hi32_eq_zero_of_lt ?_⟩
          rw [← hwidth]
          exact thrW_lt hd hlt }

/-! ## Every step keeps the invariant -/

/-- A word folded into a 32-bit draw leaves it in 32 bits (41_adapter R123). -/
theorem hi32_foldWord_w32 (engw : Width) (acc e : Word) : hi32 (foldWord engw .w32 acc e) = 0 := by
  unfold foldWord
  split <;> exact hi32_eq_zero_of_lt (low_lt .w32 _)

/-- The invariant reads neither the port nor the host's moves. -/
theorem State.Inv.withPortAndHost {s : State} (h : s.Inv) (c : Command) (moves : List HostMove) :
    State.Inv { s with bus := c, host := moves } :=
  { h with }

/-- A command taken in S1 keeps the invariant. -/
theorem ExecEffect.keeps_inv {s t : State} {i : Instr} (h : ExecEffect s i t) (hs : s.Inv)
    (hv : s.rspv = false) : t.Inv := by
  have hgen := hs.generatorInv
  cases h with
  | fails e he => exact State.GeneratorInv.inv_of_idle hgen.congr rfl
  | answers v => exact State.GeneratorInv.inv_of_idle hgen.congr rfl
  | multiplies p hi => exact State.GeneratorInv.inv_of_idle hgen.congr rfl
  | draws w => exact State.GeneratorInv.inv_startDraw (s := { s with cur := .drawop }) hgen.congr hv nofun
  | binds v mul w sg chk hmul hwide hle =>
    have hbound := bindGenerator_generatorInv (v := v) (sg := sg) hmul hwide hle (boundImage_lt ..)
      (boundImage_lt ..)
    exact State.GeneratorInv.inv_of_idle hbound.congr rfl
  | samples hgv =>
    exact State.GeneratorInv.inv_startDraw (hgen.refreshNoReuse hgv).congr (by simpa using hv)
      fun _ => by simpa [State.cfgWidth] using hgv

/-- A step of the core or the engine keeps the invariant. -/
theorem CoreEffect.keeps_inv {s t : State} (h : CoreEffect s t) (hs : s.Inv) : t.Inv := by
  have hgen := hs.generatorInv
  cases h with
  | waits => exact hs
  | lastWord hp hc =>
    have hbusy : s.phase ≠ .idle := by simp [hp]
    exact
      { hgen with
        respIdle := fun hr => absurd (hs.respIdle hr) hbusy
        fillCount := nofun
        evalCount := fun _ => rfl
        nextBound := fun _ => hs.nextBound hbusy
        accNarrow := fun _ hw => by dsimp only at hw ⊢; rw [hw]; exact hi32_foldWord_w32 _ _ _ }
  | firstWord hp hc =>
    have hbusy : s.phase ≠ .idle := by simp [hp]
    exact
      { hgen with
        respIdle := fun hr => absurd (hs.respIdle hr) hbusy
        fillCount := fun _ => ⟨le_rfl, one_le_two, fun _ => rfl⟩
        evalCount := fun he => absurd (hp.symm.trans he) nofun
        nextBound := hs.nextBound
        accNarrow := fun _ hw => by dsimp only at hw ⊢; rw [hw]; exact hi32_foldWord_w32 _ _ _ }
  | drawDone hp hc => exact State.GeneratorInv.inv_of_idle hgen.congr rfl
  | wholeDomain hp hc v => exact State.GeneratorInv.inv_of_idle hgen.congr rfl
  | fastAccept hp hc v => exact State.GeneratorInv.inv_of_idle hgen.congr rfl
  | accepts hp hc hd v =>
    have hgv := (hs.nextBound (by simp [hp]) hc).1
    have hthr : (ensureThreshold (s.setProduct s.scaledDraw)).GeneratorInv :=
      State.GeneratorInv.ensureThreshold hgen.congr hgv hd
    exact State.GeneratorInv.inv_of_idle hthr.congr rfl
  | rejects hp hc hd =>
    have hgv := (hs.nextBound (by simp [hp]) hc).1
    have hv : s.rspv = false := by
      cases hr : s.rspv
      · rfl
      · exact absurd (hs.respIdle hr) (by simp [hp])
    have hthr : (ensureThreshold (s.setProduct s.scaledDraw)).GeneratorInv :=
      State.GeneratorInv.ensureThreshold hgen.congr hgv hd
    exact hthr.inv_startDraw (by simpa using hv) fun _ => by simpa using hgv

/-- R40 and R41: the reset values meet the invariant, whatever the unspecified registers hold. -/
theorem State.AfterReset.inv {s : State} (h : s.AfterReset) : s.Inv := by
  have hgen : s.GeneratorInv :=
    { distOfRange := fun hg => absurd (h.gv.symm.trans hg) nofun
      thresholdOfDist := fun ht => absurd (h.thrv.symm.trans ht) nofun
      reuseThreshold := fun hg => absurd (h.gv.symm.trans hg) nofun
      narrowRegisters := fun hg => absurd (h.gv.symm.trans hg) nofun
      cfgLegal := by simp [State.cfgMul, State.cfgVar, h.cfg]
      cfgBits := by simp [h.cfg] }
  exact hgen.inv_of_idle h.phase

theorem afterReset_resetCore (par : Config.Params) (bus : Command) (host : List HostMove) (engine : Engine) :
    (State.resetCore par bus host engine).AfterReset :=
  ⟨rfl, rfl, rfl, rfl, rfl, rfl, rfl⟩

theorem StepEffect.keeps_inv {s t : State} (h : StepEffect s t) (hs : s.Inv) : t.Inv := by
  cases h with
  | resets rest hh => exact (afterReset_resetCore _ _ _ _).inv
  | takes rest hh hv =>
    have hgen := hs.generatorInv
    exact State.GeneratorInv.inv_of_idle hgen.congr (hs.respIdle hv)
  | illegal c rest hh he =>
    have hgen := hs.generatorInv
    exact State.GeneratorInv.inv_of_idle hgen.congr rfl
  | command c rest i hh he hd ht => exact ht.keeps_inv (hs.withPortAndHost c rest) he.2
  | core moves ht => exact ht.keeps_inv (hs.withPortAndHost s.bus moves)

/-- Settles O3: a case split along the step's effects; the clauses on the generator change only where
NEWGEN binds, NEXT recomputes the distance it has, or an evaluation computes the threshold. -/
theorem stepKeepsInvariant : Obligations.StepKeepsInvariant :=
  fun _ _ hs h => (step_effect h).keeps_inv hs

/-- Settles O4: the invariant holds after reset and every step keeps it. -/
theorem reachableStatesMeetR41 : Obligations.ReachableStatesMeetR41 :=
  fun _ _ _ hs h => (runFor_induction stepKeepsInvariant hs.inv h).toClausesR41

/-- Settles O2. -/
theorem stateAfterResetMeetsInvariant : Obligations.StateAfterResetMeetsInvariant :=
  ⟨fun _ h => h.inv, afterReset_resetCore, afterReset_resetCore _ _ _ _⟩

/-- Settles O46: a waiting response goes with IDLE (R41 (a)), and the other steps name the phase. -/
theorem atMostOneAgentEnabled : Obligations.AtMostOneAgentEnabled := by
  intro s hs
  exact ⟨fun ⟨⟨hi, _⟩, hf⟩ => absurd (hi.symm.trans hf) nofun,
    fun ⟨⟨hi, _⟩, he⟩ => absurd (hi.symm.trans he) nofun,
    fun ⟨⟨_, hv⟩, hr⟩ => absurd (hv.symm.trans hr) nofun,
    fun ⟨hf, he⟩ => absurd (hf.symm.trans he) nofun,
    fun ⟨hf, hr⟩ => absurd (hf.symm.trans (hs.respIdle hr)) nofun,
    fun ⟨he, hr⟩ => absurd (he.symm.trans (hs.respIdle hr)) nofun⟩

end Sys2Proof.Machine

namespace Sys2Proof.Machine

/-! ## What a step leaves unchanged -/

/-- A command never writes the parameters. -/
theorem ExecEffect.par {s t : State} {i : Instr} (h : ExecEffect s i t) : t.par = s.par := by
  cases h <;> simp

/-- Neither the engine step nor an evaluation writes the bounds, the distance, `CFG` or `GV`. -/
theorem CoreEffect.generator_frame {s t : State} (h : CoreEffect s t) :
    t.a = s.a ∧ t.b = s.b ∧ t.dist = s.dist ∧ t.cfg = s.cfg ∧ t.gv = s.gv ∧ t.par = s.par := by
  cases h <;> simp

/-- Only the evaluation of a NEXT writes the threshold, its flag and the product registers. -/
theorem CoreEffect.product_frame {s t : State} (h : CoreEffect s t) :
    (t.thr = s.thr ∧ t.thrv = s.thrv ∧ t.upper = s.upper ∧ t.lower = s.lower) ∨
      (s.phase = .eval ∧ s.cur = .nextop) := by
  cases h with
  | waits | lastWord | firstWord | drawDone => exact .inl ⟨rfl, rfl, rfl, rfl⟩
  | wholeDomain hp hc | fastAccept hp hc | accepts hp hc | rejects hp hc => exact .inr ⟨hp, hc⟩

/-- No step writes the parameters (10_state R36). -/
theorem StepEffect.par {s t : State} (h : StepEffect s t) : t.par = s.par := by
  cases h with
  | resets | takes | illegal => rfl
  | command c rest i hh he hd ht => exact ht.par
  | core moves ht =>
    obtain ⟨-, -, -, -, -, hpar⟩ := ht.generator_frame
    exact hpar

/-! ## The views -/

theorem State.capView_toNat (s : State) :
    s.capView.toNat = s.par.hasWideMul.toNat + 2 * (decide (s.par.engw = .w64)).toNat := by
  unfold State.capView
  cases s.par.hasWideMul <;> cases decide (s.par.engw = .w64) <;> rfl

theorem State.statusView_toNat (s : State) : s.statusView.toNat = s.gv.toNat + 2 * s.thrv.toNat := by
  unfold State.statusView
  cases s.gv <;> cases s.thrv <;> rfl

/-- Two bits side by side, read as a 64-bit register. -/
theorem getLsbD_two_bits (b1 b0 : Bool) :
    ((BitVec.ofBool b1 ++ BitVec.ofBool b0).setWidth 64).getLsbD 0 = b0 ∧
    ((BitVec.ofBool b1 ++ BitVec.ofBool b0).setWidth 64).getLsbD 1 = b1 ∧
    ∀ j, 2 ≤ j → ((BitVec.ofBool b1 ++ BitVec.ofBool b0).setWidth 64).getLsbD j = false := by
  refine ⟨?_, ?_, fun j hj => ?_⟩
  · cases b1 <;> cases b0 <;> rfl
  · cases b1 <;> cases b0 <;> rfl
  · rw [BitVec.getLsbD_setWidth, BitVec.getLsbD_of_ge _ j hj, Bool.and_false]

/-- Settles O43: the view's two bits, and the frame of a step on the parameters it shows. -/
theorem capViewShowsParametersForLife : Obligations.CapViewShowsParametersForLife := by
  refine ⟨fun s => getLsbD_two_bits _ _, fun s t h => ?_⟩
  have hpar := (step_effect h).par
  exact ⟨by unfold State.capView; rw [hpar], hpar⟩

/-! ## Taking a command -/

/-- Settles O10. -/
theorem stepRunsDecodedCommand : Obligations.StepRunsDecodedCommand := by
  intro s c rest i he hh hd
  have hready : s.ready = true := (ready_iff s).mpr he
  have hstep : step s = runCommand exec (s.present c rest) := by
    unfold step stepWith
    rw [hh]
    exact if_pos hready
  have hport : decode (s.present c rest).bus.cmd = .ok i := hd
  rw [hstep, runCommand, hport]
  rfl

/-! ## The flag `GV` -/

/-- A NEWGEN that answers without an error has bound a generator. -/
theorem newgen_gv_of_ok {v : Variant} {mul : BitVec 2} {w sg chk : Bool} {s t : State}
    (h : newgen v mul w sg chk s = .next t) (hok : t.rsp.err = .ok) : t.gv = true := by
  obtain ⟨-, ht⟩ | ⟨-, -, ht⟩ | ⟨-, -, ⟨-, -, ht⟩ | ⟨-, -, ht⟩ | ⟨-, ht⟩⟩ := newgen_cases h
  · cases ht; cases hok
  · cases ht; cases hok
  · cases ht; cases hok
  · cases ht
  · cases ht; rfl

/-- A command keeps `GV` or is a NEWGEN that sets it. -/
theorem ExecEffect.gv_cases {s t : State} {i : Instr} (h : ExecEffect s i t) :
    t.gv = s.gv ∨
      (t.gv = true ∧ t.rsp.err = .ok ∧ ∃ v mul w sg chk, i = newgenOf v mul w sg chk) := by
  cases h with
  | fails | answers | multiplies | draws => exact .inl rfl
  | binds v mul w sg chk => exact .inr ⟨rfl, rfl, v, mul, w, sg, chk, rfl⟩
  | samples => exact .inl (by simp)

/-- A step keeps `GV`, or is a reset, or takes a NEWGEN that sets it (10_state R24). -/
theorem StepEffect.gv_cases {s t : State} (h : StepEffect s t) :
    t.gv = s.gv ∨ (t.gv = false ∧ ∃ rest, s.host = .reset :: rest) ∨
      (t.gv = true ∧ t.rsp.err = .ok ∧ ∃ c rest v mul w sg chk, s.host = .issue c :: rest ∧
        s.issueEnabled ∧ decode c.cmd = .ok (newgenOf v mul w sg chk)) := by
  cases h with
  | resets rest hh => exact .inr (.inl ⟨rfl, rest, hh⟩)
  | takes | illegal => exact .inl rfl
  | command c rest i hh he hd ht =>
    obtain hgv | ⟨hgv, hok, v, mul, w, sg, chk, rfl⟩ := ht.gv_cases
    · exact .inl hgv
    · exact .inr (.inr ⟨hgv, hok, c, rest, v, mul, w, sg, chk, hh, he, hd⟩)
  | core moves ht =>
    obtain ⟨-, -, -, -, hgv, -⟩ := ht.generator_frame
    exact .inl hgv

/-- Settles O44: what a step does to `GV`, and a NEWGEN that answers without an error. -/
theorem generatorValidOnlyBoundByNewgen : Obligations.GeneratorValidOnlyBoundByNewgen := by
  intro s t h
  have hcases := (step_effect h).gv_cases
  refine ⟨fun hs ht => ?_, fun hs ht => ?_, fun c rest v mul w sg chk hh he hd hok => ?_,
    (getLsbD_two_bits _ _).1⟩
  · obtain hgv | ⟨-, hreset⟩ | ⟨hgv, -⟩ := hcases
    · exact absurd (hgv.trans hs) (by simp [ht])
    · exact hreset
    · exact absurd hgv (by simp [ht])
  · obtain hgv | ⟨hgv, -⟩ | ⟨-, hok, c, rest, v, mul, w, sg, chk, hh, he, hd⟩ := hcases
    · exact absurd (hgv.trans hs) (by simp [ht])
    · exact absurd hgv (by simp [ht])
    · exact ⟨c, rest, v, mul, w, sg, chk, hh, he, hd, hok⟩
  · rw [stepRunsDecodedCommand s c rest _ he hh hd, exec_newgenOf] at h
    exact newgen_gv_of_ok h hok

/-! ## The flag `RSPV` -/

/-- The state is what `respond` leaves, from a state where no response waits. -/
def State.Responded (t : State) : Prop :=
  t.phase = .idle ∧ ∃ (u : State) (e : ErrCode) (r0 r1 : Word), u.rspv = false ∧ t = u.respond e r0 r1

theorem State.responded_respond {u : State} (hu : u.rspv = false) (e : ErrCode) (r0 r1 : Word) :
    (u.respond e r0 r1).Responded :=
  ⟨rfl, u, e, r0, r1, hu, rfl⟩

/-- A command that sets `RSPV` responds. -/
theorem ExecEffect.responded {s t : State} {i : Instr} (h : ExecEffect s i t) (hs : s.rspv = false)
    (ht : t.rspv = true) : t.Responded := by
  cases h with
  | fails | answers | multiplies | binds => exact State.responded_respond (by simpa using hs) _ _ _
  | draws | samples => simp [hs] at ht

/-- The core sets `RSPV` only by responding in an evaluation. -/
theorem CoreEffect.responded {s t : State} (h : CoreEffect s t) (hs : s.rspv = false)
    (ht : t.rspv = true) : s.phase = .eval ∧ t.Responded := by
  cases h with
  | waits | lastWord | firstWord | rejects => simp [hs] at ht
  | drawDone hp | wholeDomain hp | fastAccept hp | accepts hp =>
    exact ⟨hp, State.responded_respond (by simpa using hs) _ _ _⟩

/-- A step that sets `RSPV` takes a command or evaluates a draw, and responds (10_state R26). -/
theorem StepEffect.responded {s t : State} (h : StepEffect s t) (hs : s.rspv = false)
    (ht : t.rspv = true) :
    t.Responded ∧ ((∃ c rest, s.host = .issue c :: rest ∧ s.issueEnabled) ∨ s.evalEnabled) := by
  cases h with
  | resets | takes => cases ht
  | illegal c rest hh he => exact ⟨State.responded_respond (by simpa using hs) _ _ _, .inl ⟨c, rest, hh, he⟩⟩
  | command c rest i hh he hd hi => exact ⟨hi.responded hs ht, .inl ⟨c, rest, hh, he⟩⟩
  | core moves hc =>
    obtain ⟨hp, hr⟩ := hc.responded hs ht
    exact ⟨hr, .inr hp⟩

/-- In IDLE the core does nothing of itself. -/
theorem coreStep_of_idle {s : State} (h : s.phase = .idle) : coreStep s = .next s := by
  unfold coreStep
  rw [h]

theorem CoreEffect.eq_of_idle {s t : State} (h : CoreEffect s t) (hp : s.phase = .idle) : t = s := by
  cases h with
  | waits => rfl
  | lastWord hf | firstWord hf | drawDone hf | wholeDomain hf | fastAccept hf | accepts hf | rejects hf =>
    exact absurd (hp.symm.trans hf) nofun

/-- A step that clears `RSPV` in IDLE is a take or a reset. -/
theorem StepEffect.take_or_reset {s t : State} (h : StepEffect s t) (hp : s.phase = .idle)
    (hs : s.rspv = true) (ht : t.rspv = false) :
    ∃ rest, s.host = .take :: rest ∨ s.host = .reset :: rest := by
  cases h with
  | resets rest hh => exact ⟨rest, .inr hh⟩
  | takes rest hh => exact ⟨rest, .inl hh⟩
  | illegal c rest hh he | command c rest i hh he => exact absurd (he.2.symm.trans hs) nofun
  | core moves hc =>
    rw [hc.eq_of_idle hp] at ht
    exact absurd (ht.symm.trans hs) nofun

/-- Settles O45: a step that sets `RSPV` responds; while it is set the core is in IDLE (R41 (a)), so
that only the host's take and reset change anything. -/
theorem responseValidUntilTaken : Obligations.ResponseValidUntilTaken := by
  refine ⟨fun s t h hs ht => ?_, fun s hinv hs => ?_⟩
  · obtain ⟨⟨hp, hu⟩, hwhen⟩ := (step_effect h).responded hs ht
    exact ⟨hp, hwhen, hu⟩
  · have hp : s.phase = .idle := hinv.respIdle hs
    have hready : s.ready ≠ true := by simp [ready_iff, hs]
    refine ⟨fun t h ht => (step_effect h).take_or_reset hp hs ht, fun rest hh => ?_, fun c rest hh => ?_,
      fun rest hh => ?_⟩
    · unfold step stepWith
      rw [hh]
      exact if_pos hs
    · unfold step stepWith
      rw [hh]
      exact (if_neg hready).trans (coreStep_of_idle hp)
    · unfold step stepWith
      rw [hh]
      exact ⟨_, rfl, rfl⟩

/-! ## Who writes which register -/

/-- Settles O47: along the step's effects; outside a reset, a NEWGEN, an EXTMUL, a NEXT and its
evaluation the data registers stay. -/
theorem dataRegistersWrittenOnlyByTheirWriters : Obligations.DataRegistersWrittenOnlyByTheirWriters := by
  intro s t h resets issues binds evaluates
  cases step_effect h with
  | resets rest hh =>
    have hr : resets := ⟨rest, hh⟩
    exact ⟨fun _ => .inl hr, fun _ => .inl hr, fun _ => .inl hr, fun _ => .inl hr, fun _ => .inl hr⟩
  | takes | illegal => simp
  | command c rest i hh he hd ht =>
    have hi : issues i := ⟨c, rest, hh, he, hd⟩
    cases ht with
    | fails | answers | draws => simp
    | multiplies p hmul =>
      refine ⟨by simp, by simp, by simp, by simp, fun _ => .inr ?_⟩
      obtain rfl | rfl | rfl := hmul
      · exact .inl hi
      · exact .inr (.inl hi)
      · exact .inr (.inr (.inl hi))
    | binds v mul w sg chk =>
      have hb : binds := ⟨v, mul, w, sg, chk, hi⟩
      exact ⟨fun _ => .inr hb, fun _ => .inr (.inl hb), fun _ => .inr (.inl hb), fun _ => .inr (.inl hb),
        by simp⟩
    | samples =>
      exact ⟨by simp, fun _ => .inr (.inr hi), by simp, fun _ => .inr (.inr (.inl hi)), by simp⟩
  | core moves ht =>
    obtain ⟨ha, hb, hdist, hcfg, -⟩ := ht.generator_frame
    obtain ⟨hthr, hthrv, hupper, hlower⟩ | he := ht.product_frame
    · simp [ha, hb, hdist, hcfg, hthr, hthrv, hupper, hlower]
    · have heval : evaluates := he
      exact ⟨by simp [ha, hb, hcfg], by simp [hdist], fun _ => .inr (.inr heval),
        fun _ => .inr (.inr (.inr heval)), fun _ => .inr (.inr (.inr (.inr heval)))⟩

/-! ## RDREG -/

theorem exec_rdreg_of_some {s : State} {n : BitVec 4} {v : Word} (h : s.readReg n = some v) :
    exec (.rdreg n) s = .next (s.respond .ok v 0) := by
  show execRdreg n s = _
  rw [execRdreg, h]

theorem exec_rdreg_of_none {s : State} {n : BitVec 4} (h : s.readReg n = none) :
    exec (.rdreg n) s = .next (s.raise .illegal) := by
  show execRdreg n s = _
  rw [execRdreg, h]

/-- The numbers that name no register (10_state R23). -/
theorem not_regLegal_of_mem : ∀ n : BitVec 4, n.toNat ∈ [6, 7, 11, 12, 13, 14, 15] → ¬regLegal n := by
  decide

/-- The word of an RDREG of a number that names no register is illegal by R80 (f). -/
theorem illegalWord_encode_rdreg :
    ∀ n : BitVec 4, n.toNat ∈ [6, 7, 11, 12, 13, 14, 15] → IllegalWord (encode (.rdreg n)) := by
  unfold IllegalWord
  decide

/-- Settles O42: the register read of each number, and of the numbers that name none. -/
theorem rdregReturnsNamedRegister : Obligations.RdregReturnsNamedRegister := by
  intro s
  refine ⟨fun n v h => exec_rdreg_of_some ?_, fun n hn => ⟨exec_rdreg_of_none ?_, illegalWord_encode_rdreg n hn⟩⟩
  · obtain ⟨rfl, rfl⟩ | ⟨rfl, rfl⟩ | ⟨rfl, rfl⟩ | ⟨rfl, rfl⟩ | ⟨rfl, rfl⟩ | ⟨rfl, rfl⟩ | ⟨rfl, rfl⟩ |
      ⟨rfl, hv⟩ | ⟨rfl, hv⟩ := h
    · rfl
    · rfl
    · rfl
    · rfl
    · rfl
    · rfl
    · rfl
    · have hview : v = s.statusView := BitVec.eq_of_toNat_eq (hv.trans s.statusView_toNat.symm)
      rw [hview]
      rfl
    · have hview : v = s.capView := BitVec.eq_of_toNat_eq (hv.trans s.capView_toNat.symm)
      rw [hview]
      rfl
  · have hnone : ¬(s.readReg n).isSome = true := fun h => not_regLegal_of_mem n hn ((readReg_isSome_iff s n).mp h)
    simpa using hnone

end Sys2Proof.Machine

namespace Sys2Proof.Machine

/-! ## Dead registers

`State.liveView` blanks the dead registers. Every part of a step gives the same outcome, up to dead
registers, from a state and from its live view; two states with one live view then step alike through
it. -/

theorem SameLive.symm {r q : Result} (h : SameLive r q) : SameLive q r := by
  cases r <;> cases q
  case next.next | fault.fault | refused.refused => exact Eq.symm h
  all_goals exact h

theorem SameLive.trans {r q p : Result} (h : SameLive r q) (h' : SameLive q p) : SameLive r p := by
  cases r <;> cases q <;> cases p
  case next.next.next | fault.fault.fault | refused.refused.refused => exact Eq.trans h h'
  all_goals simp_all [SameLive]

/-! ### The updates -/

@[simp] theorem State.liveView_par (s : State) : s.liveView.par = s.par := rfl
@[simp] theorem State.liveView_bus (s : State) : s.liveView.bus = s.bus := rfl
@[simp] theorem State.liveView_host (s : State) : s.liveView.host = s.host := rfl
@[simp] theorem State.liveView_gv (s : State) : s.liveView.gv = s.gv := rfl
@[simp] theorem State.liveView_rspv (s : State) : s.liveView.rspv = s.rspv := rfl
@[simp] theorem State.liveView_ready (s : State) : s.liveView.ready = s.ready := rfl
@[simp] theorem State.liveView_cfgVar (s : State) : s.liveView.cfgVar = s.cfgVar := rfl
@[simp] theorem State.liveView_readReg (s : State) (n : BitVec 4) : s.liveView.readReg n = s.readReg n := rfl

@[simp] theorem State.liveView_liveView (s : State) : s.liveView.liveView = s.liveView := by
  by_cases hp : s.phase = .idle <;> cases hv : s.rspv <;> simp [State.liveView, hp, hv]

/-- A response overwrites `RSP`, and the sequencer's registers are dead after it. -/
theorem State.liveView_respond (s : State) (e : ErrCode) (r0 r1 : Word) :
    (s.liveView.respond e r0 r1).liveView = (s.respond e r0 r1).liveView := by
  simp [State.liveView, State.respond]

/-- `RSP` is dead while no response waits. -/
theorem State.liveView_setRsp (s : State) {r : Response} (h : s.rspv = true → r = s.rsp) :
    State.liveView { s with rsp := r } = s.liveView := by
  by_cases hv : s.rspv = true
  · rw [h hv]
  · simp [State.liveView, hv]

/-- A draw overwrites all the sequencer's registers. -/
theorem State.liveView_startDraw (s : State) (c : Cur) (w : Width) :
    (State.startDraw { s.liveView with cur := c } w).liveView =
      (State.startDraw { s with cur := c } w).liveView := by
  cases hv : s.rspv <;> simp [State.liveView, State.startDraw, hv]

/-- While a command is in progress only `RSP` can be dead. -/
theorem State.liveView_of_busy {s : State} (hp : s.phase ≠ .idle) :
    ∃ r, (s.rspv = true → r = s.rsp) ∧ s.liveView = { s with rsp := r } := by
  refine ⟨s.liveView.rsp, fun hv => if_pos hv, ?_⟩
  simp [State.liveView, hp]

/-! ### The commands -/

theorem State.sameLive_raise (s : State) (e : ErrCode) :
    SameLive (.next (s.raise e)) (.next (s.liveView.raise e)) :=
  (s.liveView_respond e 0 0).symm

theorem newgen_sameLive (v : Variant) (mul : BitVec 2) (w sg chk : Bool) (s : State) :
    SameLive (newgen v mul w sg chk s) (newgen v mul w sg chk s.liveView) := by
  unfold newgen
  rw [State.liveView_par, State.liveView_bus]
  dsimp only
  split_ifs
  · exact s.sameLive_raise _
  · exact s.sameLive_raise _
  · exact s.sameLive_raise _
  · rfl
  · simp [SameLive, State.liveView, State.respond, bindGenerator]

theorem finishExtmul_sameLive (p : Product) (s : State) :
    SameLive (finishExtmul p s) (finishExtmul p s.liveView) :=
  ((s.setProduct p).liveView_respond _ _ _).symm

theorem execExtmulI_sameLive (s : State) : SameLive (execExtmulI s) (execExtmulI s.liveView) := by
  unfold execExtmulI
  rw [State.liveView_par, State.liveView_bus]
  split
  · exact finishExtmul_sameLive _ s
  · exact s.sameLive_raise _

theorem State.liveView_refreshNoReuse (s : State) :
    (refreshNoReuse s).liveView = refreshNoReuse s.liveView := by
  unfold refreshNoReuse
  rw [State.liveView_cfgVar]
  split <;> rfl

theorem execNext_sameLive (s : State) : SameLive (execNext s) (execNext s.liveView) := by
  unfold execNext
  rw [State.liveView_gv]
  split
  · rw [← s.liveView_refreshNoReuse]
    exact ((refreshNoReuse s).liveView_startDraw _ _).symm
  · exact s.sameLive_raise _

theorem execRdreg_sameLive (reg : BitVec 4) (s : State) :
    SameLive (execRdreg reg s) (execRdreg reg s.liveView) := by
  unfold execRdreg
  rw [State.liveView_readReg]
  split
  · exact (s.liveView_respond _ _ _).symm
  · exact s.sameLive_raise _

/-- No command depends on a dead register. -/
theorem exec_sameLive (i : Instr) (s : State) : SameLive (exec i s) (exec i s.liveView) := by
  cases i with
  | extmulS => exact finishExtmul_sameLive _ s
  | extmulO => exact finishExtmul_sameLive _ s
  | extmulI => exact execExtmulI_sameLive s
  | draw32 => exact (s.liveView_startDraw .drawop .w32).symm
  | draw64 => exact (s.liveView_startDraw .drawop .w64).symm
  | touns w sg => exact (s.liveView_respond _ _ _).symm
  | tosgn w sg => exact (s.liveView_respond _ _ _).symm
  | newgenNR mul w sg chk => exact newgen_sameLive .nr mul w sg chk s
  | newgenRU mul w sg chk => exact newgen_sameLive .ru mul w sg chk s
  | newgenLZ mul w sg chk => exact newgen_sameLive .lz mul w sg chk s
  | next => exact execNext_sameLive s
  | rdreg reg => exact execRdreg_sameLive reg s

theorem runCommand_sameLive (s : State) : SameLive (runCommand exec s) (runCommand exec s.liveView) := by
  unfold runCommand
  rw [State.liveView_bus]
  split
  · exact exec_sameLive _ s
  · exact s.sameLive_raise _

/-! ### The core and the engine -/

theorem fillStep_setRsp {s : State} {r : Response} (h : s.rspv = true → r = s.rsp) :
    SameLive (fillStep s) (fillStep { s with rsp := r }) := by
  rw [fillStep_eq, fillStep_eq]
  rw [show State.engineWordAt { s with rsp := r } s.engine.pos = s.engineWordAt s.engine.pos from rfl]
  dsimp only
  split
  · unfold State.acceptWord
    dsimp only
    split
    · rfl
    · exact (State.liveView_setRsp _ (by exact h)).symm
    · exact (State.liveView_setRsp _ (by exact h)).symm
  · exact (State.liveView_setRsp _ h).symm

theorem ensureThreshold_setRsp (s : State) (r : Response) :
    ensureThreshold { s with rsp := r } = { ensureThreshold s with rsp := r } := by
  unfold ensureThreshold
  dsimp only
  split <;> rfl

theorem decideDraw_setRsp (p : Product) {s : State} {r : Response} (h : s.rspv = true → r = s.rsp) :
    (decideDraw p { s with rsp := r }).liveView = (decideDraw p s).liveView := by
  unfold decideDraw
  rw [ensureThreshold_setRsp]
  dsimp only
  rw [show State.cfgWidth { s with rsp := r } = s.cfgWidth from rfl]
  rw [show State.cfgWidth { ensureThreshold s with rsp := r } = (ensureThreshold s).cfgWidth from rfl]
  split_ifs
  · rfl
  · rfl
  · exact State.liveView_setRsp ((ensureThreshold s).startDraw _) (by simpa using h)

theorem evalNext_setRsp {s : State} {r : Response} (h : s.rspv = true → r = s.rsp) :
    (evalNext { s with rsp := r }).liveView = (evalNext s).liveView := by
  unfold evalNext
  dsimp only
  rw [show State.cfgWidth { s with rsp := r } = s.cfgWidth from rfl]
  split
  · rfl
  · exact decideDraw_setRsp _ (s := s.setProduct _) h

/-- Neither the core nor the engine depends on a dead register. -/
theorem coreStep_sameLive (s : State) : SameLive (coreStep s) (coreStep s.liveView) := by
  by_cases hp : s.phase = .idle
  · rw [coreStep_of_idle hp, coreStep_of_idle (s := s.liveView) hp]
    exact s.liveView_liveView.symm
  · obtain ⟨r, hr, hlive⟩ := State.liveView_of_busy hp
    rw [hlive]
    unfold coreStep evalStep
    dsimp only
    split
    · next hi => exact absurd hi hp
    · exact fillStep_setRsp hr
    · split
      · rfl
      · exact (evalNext_setRsp hr).symm

/-! ### The step -/

theorem State.liveView_takeResponse (s : State) :
    s.liveView.takeResponse.liveView = s.takeResponse.liveView := by
  by_cases hp : s.phase = .idle <;> simp [State.liveView, State.takeResponse, hp]

/-- A step from a state and from its live view show the same machine. -/
theorem step_sameLive (s : State) : SameLive (step s) (step s.liveView) := by
  unfold step stepWith
  rw [State.liveView_host, State.liveView_rspv, State.liveView_ready]
  split
  · rfl
  · next rest _ =>
    split
    · exact (State.liveView_takeResponse { s with host := rest }).symm
    · exact coreStep_sameLive s
  · next c rest _ =>
    split
    · exact runCommand_sameLive (s.present c rest)
    · exact coreStep_sameLive s
  · next rest _ => exact coreStep_sameLive { s with host := rest }
  · exact coreStep_sameLive s

/-- Settles O49: both states step as their common live view does. -/
theorem deadRegistersHaveNoEffect : Obligations.DeadRegistersHaveNoEffect := by
  intro s t h
  have hs := step_sameLive s
  rw [h] at hs
  exact hs.trans (step_sameLive t).symm

end Sys2Proof.Machine

namespace Sys2Proof.Machine

/-! ## The engine's stream

The engine is read in one place, the engine step of FILL; everything else in a step keeps it. -/

/-- The words from the new position on stay where they are in the stream when the engine is advanced
(20_memory R55). -/
theorem engineWordAt_of_advance {s t : State} {k n : Nat} (hpar : t.par = s.par)
    (he : t.engine = s.engine.advance k) (hn : s.engine.pos + k ≤ n) :
    t.engineWordAt n = s.engineWordAt n := by
  have hindex : k + (n - (s.engine.pos + k)) = n - s.engine.pos := by omega
  simp [State.engineWordAt, Engine.advance, hpar, he, List.getElem?_drop, hindex]

/-- No command reads the engine in step S1 (41_adapter R122). -/
theorem ExecEffect.engine {s t : State} {i : Instr} (h : ExecEffect s i t) : t.engine = s.engine := by
  cases h <;> simp

/-- The core keeps the engine, or is in FILL and takes one word from it. -/
theorem CoreEffect.engine_cases {s t : State} (h : CoreEffect s t) :
    t.engine = s.engine ∨ (s.phase = .fill ∧ t.engine = s.engine.advance 1) := by
  cases h with
  | waits | drawDone | wholeDomain | fastAccept | accepts | rejects => exact .inl (by simp)
  | lastWord hp | firstWord hp => exact .inr ⟨hp, rfl⟩

/-- With a silent engine the core waits in FILL (70_reset R241). -/
theorem coreStep_of_silent {s : State} (hp : s.phase = .fill) (hs : ¬s.engineAnswers 1) :
    coreStep s = .next s := by
  unfold coreStep
  rw [hp]
  exact (fillStep_eq s).trans (if_neg hs)

/-- The engine advances by one word, on a request in FILL that it answers. -/
def EngineAdvances (s t : State) : Prop :=
  s.phase = .fill ∧ s.engineAnswers 1 ∧ t.engine = s.engine.advance 1

theorem coreStep_engine_cases {s t : State} (h : coreStep s = .next t) :
    t.engine = s.engine ∨ EngineAdvances s t := by
  obtain hkept | ⟨hp, hadv⟩ := (coreStep_effect h).engine_cases
  · exact .inl hkept
  · by_cases hs : s.engineAnswers 1
    · exact .inr ⟨hp, hs, hadv⟩
    · rw [coreStep_of_silent hp hs] at h
      cases h
      exact .inl rfl

theorem runCommand_engine {s t : State} (h : runCommand exec s = .next t) : t.engine = s.engine := by
  obtain ⟨i, -, hi⟩ | ⟨e, -, hi⟩ := runCommand_cases h
  · exact (exec_effect hi.symm).engine
  · cases hi
    rfl

/-- The host's enabled moves keep the engine (20_memory R58, 70_reset R230); the rest of a step is the
core's. -/
theorem step_engine_cases {s t : State} (h : step s = .next t) :
    t.engine = s.engine ∨ EngineAdvances s t := by
  obtain ⟨rest, -, ht⟩ | ⟨rest, -, -, ht⟩ | ⟨c, rest, -, -, ht⟩ | ⟨rest, -, ht⟩ | ⟨-, ht⟩ := step_cases h
  · cases ht
    exact .inl rfl
  · cases ht
    exact .inl rfl
  · exact .inl (runCommand_engine (s := s.present c rest) ht.symm)
  · exact coreStep_engine_cases (s := { s with host := rest }) ht.symm
  · exact coreStep_engine_cases ht.symm

/-- Settles O27: only the engine step advances the engine, and no step writes the width of its port, so
the words after the one taken are the same. -/
theorem engineAdvancesOnlyByEngineStep : Obligations.EngineAdvancesOnlyByEngineStep := by
  intro s t h
  obtain hkept | ⟨hp, hs, hadv⟩ := step_engine_cases h
  · exact .inl hkept
  · exact .inr ⟨hp, hs, hadv, fun n hn => engineWordAt_of_advance (step_effect h).par hadv hn⟩

end Sys2Proof.Machine

/-! # Proofs about the encoding: the decoder, the encoder and what S1 makes of the word -/

namespace Sys2Proof

/-! ## The word and its fields

The fields of R71 are the digits of the word as a number, so that cutting the word and laying the fields
side by side are inverse to each other by arithmetic. -/

theorem bool_eq_of_toNat_eq : ∀ {b b' : Bool}, b.toNat = b'.toNat → b = b' := by decide


/-- The word as a number: each field times the place of its lowest bit (30_encoding R71). -/
theorem packFields_toNat (f : Fields) : (packFields f).toNat =
    f.op.toNat + 2 ^ 4 * f.mul.toNat + 2 ^ 6 * f.var.toNat + 2 ^ 8 * f.w.toNat + 2 ^ 9 * f.sg.toNat +
      2 ^ 10 * f.chk.toNat + 2 ^ 11 * f.reg.toNat + 2 ^ 15 * f.zero.toNat := by
  unfold packFields
  repeat rw [BitVec.toNat_append, ← Nat.shiftLeft_add_eq_or_of_lt (BitVec.isLt _), Nat.shiftLeft_eq]
  simp only [BitVec.toNat_ofBool]
  omega

theorem extractLsb'_toNat_eq_div_mod (c : CmdWord) (i n : Nat) :
    (c.extractLsb' i n).toNat = c.toNat / 2 ^ i % 2 ^ n := by
  rw [BitVec.extractLsb'_toNat, Nat.shiftRight_eq_div_pow]

theorem getLsbD_toNat_eq_div_mod (c : CmdWord) (i : Nat) :
    (c.getLsbD i).toNat = c.toNat / 2 ^ i % 2 :=
  Nat.toNat_testBit _ _

/-- The fields of R71 cover the word: no bit of it is lost. -/
theorem packFields_fieldsOf (c : CmdWord) : packFields (fieldsOf c) = c := by
  apply BitVec.eq_of_toNat_eq
  rw [packFields_toNat]
  simp only [fieldsOf, extractLsb'_toNat_eq_div_mod, getLsbD_toNat_eq_div_mod]
  omega

/-- The fields of R71 do not overlap: each is read back as it was laid down. -/
theorem fieldsOf_packFields (f : Fields) : fieldsOf (packFields f) = f := by
  have hword := packFields_toNat f
  have hop := f.op.isLt
  have hmul := f.mul.isLt
  have hvar := f.var.isLt
  have hw := f.w.toNat_lt
  have hsg := f.sg.toNat_lt
  have hchk := f.chk.toNat_lt
  have hreg := f.reg.isLt
  rw [fieldsOf, Fields.mk.injEq]
  refine ⟨BitVec.eq_of_toNat_eq ?_, BitVec.eq_of_toNat_eq ?_, BitVec.eq_of_toNat_eq ?_,
    bool_eq_of_toNat_eq ?_, bool_eq_of_toNat_eq ?_, bool_eq_of_toNat_eq ?_,
    BitVec.eq_of_toNat_eq ?_, BitVec.eq_of_toNat_eq ?_⟩
  all_goals
    simp only [extractLsb'_toNat_eq_div_mod, getLsbD_toNat_eq_div_mod]
    omega


/-! ## The decoder

One lemma per opcode: which fields it gives a command for, and which command. -/

theorem ifUnusedZero_eq_ok_iff {unusedZero : Bool} {r : Except Illegal Instr} {i : Instr} :
    ifUnusedZero unusedZero r = .ok i ↔ unusedZero = true ∧ r = .ok i := by
  cases unusedZero <;> simp [ifUnusedZero]

section
variable (f : Fields) (i : Instr)

theorem decodeExtmul_eq_ok_iff : decodeExtmul f = .ok i ↔
    (f.var = 0 ∧ f.w = false ∧ f.sg = false ∧ f.chk = false ∧ f.reg = 0) ∧
    (f.mul = 0 ∧ i = .extmulS ∨ f.mul = 1 ∧ i = .extmulO ∨ f.mul = 2 ∧ i = .extmulI) := by
  rw [decodeExtmul, ifUnusedZero_eq_ok_iff]
  refine and_congr (by simp [and_assoc]) ?_
  split
  · next h => simp [h, eq_comm]
  · next h => simp [h, eq_comm]
  · next h => simp [h, eq_comm]
  · next h0 h1 h2 => exact iff_of_false nofun (by simp_all)

theorem decodeDraw_eq_ok_iff : decodeDraw f = .ok i ↔
    (f.mul = 0 ∧ f.var = 0 ∧ f.sg = false ∧ f.chk = false ∧ f.reg = 0) ∧
    (f.w = false ∧ i = .draw32 ∨ f.w = true ∧ i = .draw64) := by
  rw [decodeDraw, ifUnusedZero_eq_ok_iff]
  refine and_congr (by simp [and_assoc]) ?_
  cases f.w <;> simp [eq_comm]

theorem decodeTransposition_eq_ok_iff (mk : Bool → Bool → Instr) : decodeTransposition mk f = .ok i ↔
    (f.mul = 0 ∧ f.var = 0 ∧ f.chk = false ∧ f.reg = 0) ∧ i = mk f.w f.sg := by
  rw [decodeTransposition, ifUnusedZero_eq_ok_iff]
  exact and_congr (by simp [and_assoc]) (by simp [eq_comm])

theorem decodeNewgen_eq_ok_iff : decodeNewgen f = .ok i ↔
    f.reg = 0 ∧ mulLegal f.mul ∧
    (f.var = 0 ∧ i = .newgenNR f.mul f.w f.sg f.chk ∨ f.var = 1 ∧ i = .newgenRU f.mul f.w f.sg f.chk ∨
      f.var = 2 ∧ i = .newgenLZ f.mul f.w f.sg f.chk) := by
  rw [decodeNewgen, ifUnusedZero_eq_ok_iff]
  refine and_congr (by simp) ?_
  split
  · next hmul => simp [hmul]
  · next hmul =>
    rw [and_iff_right hmul]
    split
    · next h => simp [h, eq_comm]
    · next h => simp [h, eq_comm]
    · next h => simp [h, eq_comm]
    · next h0 h1 h2 => exact iff_of_false nofun (by simp_all)

theorem decodeNext_eq_ok_iff : decodeNext f = .ok i ↔
    (f.mul = 0 ∧ f.var = 0 ∧ f.w = false ∧ f.sg = false ∧ f.chk = false ∧ f.reg = 0) ∧ i = .next := by
  rw [decodeNext, ifUnusedZero_eq_ok_iff]
  exact and_congr (by simp [and_assoc]) (by simp [eq_comm])

theorem decodeRdreg_eq_ok_iff : decodeRdreg f = .ok i ↔
    (f.mul = 0 ∧ f.var = 0 ∧ f.w = false ∧ f.sg = false ∧ f.chk = false) ∧ regLegal f.reg ∧
    i = .rdreg f.reg := by
  rw [decodeRdreg, ifUnusedZero_eq_ok_iff]
  refine and_congr (by simp [and_assoc]) ?_
  split
  · next hreg => rw [and_iff_right hreg]; simp [eq_comm]
  · next hreg => exact iff_of_false nofun fun h => hreg h.1

/-- The decoder of R78: no reserved bit is set and the opcode's own decoder gives the command. -/
theorem decodeFields_eq_ok_iff : decodeFields f = .ok i ↔ f.zero = 0 ∧
    (f.op = 1 ∧ decodeExtmul f = .ok i ∨ f.op = 2 ∧ decodeDraw f = .ok i ∨
      f.op = 3 ∧ decodeTransposition .touns f = .ok i ∨ f.op = 4 ∧ decodeTransposition .tosgn f = .ok i ∨
      f.op = 5 ∧ decodeNewgen f = .ok i ∨ f.op = 6 ∧ decodeNext f = .ok i ∨
      f.op = 7 ∧ decodeRdreg f = .ok i) := by
  unfold decodeFields
  split
  · next hz =>
    rw [and_iff_right hz]
    split
    iterate 7 next hop => simp [hop]
    next => simp_all
  · next hz => exact iff_of_false nofun fun h => hz h.1
end

/-- The fields of a well-formed command decode to it. -/
theorem decodeFields_instrFields {i : Instr} (h : WellFormed i) : decodeFields (instrFields i) = .ok i := by
  cases i with
  | newgenNR mul w sg chk | newgenRU mul w sg chk | newgenLZ mul w sg chk => exact if_neg h
  | rdreg reg => exact if_pos h
  | _ => rfl

/-- Fields decode only to a well-formed command whose fields they are: along the opcodes, each field is
either 0 or kept in the command. -/
theorem eq_instrFields_of_decodeFields {f : Fields} {i : Instr} (h : decodeFields f = .ok i) :
    WellFormed i ∧ f = instrFields i := by
  obtain ⟨op, mul, var, w, sg, chk, reg, zero⟩ := f
  simp only [decodeFields_eq_ok_iff, decodeExtmul_eq_ok_iff, decodeDraw_eq_ok_iff,
    decodeTransposition_eq_ok_iff, decodeNewgen_eq_ok_iff, decodeNext_eq_ok_iff, decodeRdreg_eq_ok_iff] at h
  obtain ⟨rfl, ⟨rfl, hu, hi⟩ | ⟨rfl, hu, hi⟩ | ⟨rfl, hu, hi⟩ | ⟨rfl, hu, hi⟩ | ⟨rfl, hu, hlegal, hi⟩ |
    ⟨rfl, hu, hi⟩ | ⟨rfl, hu, hlegal, hi⟩⟩ := h
  · obtain ⟨rfl, rfl, rfl, rfl, rfl⟩ := hu
    obtain ⟨rfl, rfl⟩ | ⟨rfl, rfl⟩ | ⟨rfl, rfl⟩ := hi
    · exact ⟨trivial, rfl⟩
    · exact ⟨trivial, rfl⟩
    · exact ⟨trivial, rfl⟩
  · obtain ⟨rfl, rfl, rfl, rfl, rfl⟩ := hu
    obtain ⟨rfl, rfl⟩ | ⟨rfl, rfl⟩ := hi
    · exact ⟨trivial, rfl⟩
    · exact ⟨trivial, rfl⟩
  · obtain ⟨rfl, rfl, rfl, rfl⟩ := hu
    exact hi ▸ ⟨trivial, rfl⟩
  · obtain ⟨rfl, rfl, rfl, rfl⟩ := hu
    exact hi ▸ ⟨trivial, rfl⟩
  · obtain rfl := hu
    obtain ⟨rfl, rfl⟩ | ⟨rfl, rfl⟩ | ⟨rfl, rfl⟩ := hi
    · exact ⟨hlegal, rfl⟩
    · exact ⟨hlegal, rfl⟩
    · exact ⟨hlegal, rfl⟩
  · obtain ⟨rfl, rfl, rfl, rfl, rfl, rfl⟩ := hu
    exact hi ▸ ⟨trivial, rfl⟩
  · obtain ⟨rfl, rfl, rfl, rfl, rfl⟩ := hu
    exact hi ▸ ⟨hlegal, rfl⟩

/-- The opcode map (30_encoding R77): a word decodes to a command exactly if the command is
well-formed and the word's fields are the command's. -/
theorem decode_eq_ok_iff {c : CmdWord} {i : Instr} :
    decode c = .ok i ↔ WellFormed i ∧ fieldsOf c = instrFields i := by
  refine ⟨eq_instrFields_of_decodeFields, fun ⟨hwf, hf⟩ => ?_⟩
  rw [decode, hf]
  exact decodeFields_instrFields hwf

/-- Settles O6: the decoder reads back the fields that the encoder lays side by side. -/
theorem decodeOfEncodeGivesCommand : Obligations.DecodeOfEncodeGivesCommand :=
  fun _ h => decode_eq_ok_iff.mpr ⟨h, fieldsOf_packFields _⟩

/-- Settles O7: a word that decodes has the fields of its command, and the fields cover the word. -/
theorem encodeOfDecodeGivesWord : Obligations.EncodeOfDecodeGivesWord := by
  intro c i h
  obtain ⟨hwf, hf⟩ := decode_eq_ok_iff.mp h
  exact ⟨hwf, by rw [encode, ← hf, packFields_fieldsOf]⟩

/-- Settles O9: the decoder evaluated on the eight words. -/
theorem sampleWordsDecode : Obligations.SampleWordsDecode := by
  unfold Obligations.SampleWordsDecode
  decide


/-! ## The rows of the opcode map

A row's match is the word of the row's command with 0 in the free fields, and its mask clears exactly
those fields. -/

theorem fieldsOf_injective : Function.Injective fieldsOf :=
  Function.LeftInverse.injective packFields_fieldsOf

theorem eq_encode_iff {c : CmdWord} {i : Instr} : c = encode i ↔ fieldsOf c = instrFields i := by
  rw [← fieldsOf_injective.eq_iff, encode, fieldsOf_packFields]

/-- A row with no free field: the mask is full. -/
theorem decode_eq_ok_iff_fullMask {i : Instr} (hwf : WellFormed i) (c : CmdWord) :
    decode c = .ok i ↔ c &&& 0xFFFFFFFF = encode i := by
  have hmask : c &&& 0xFFFFFFFF = c := BitVec.and_allOnes
  rw [hmask, eq_encode_iff, decode_eq_ok_iff, and_iff_right hwf]

/-! A field whose bits the mask keeps all. -/

theorem and_ones_width2 (x : BitVec 2) : x &&& 0x3#2 = x := BitVec.and_allOnes
theorem and_ones_width4 (x : BitVec 4) : x &&& 0xF#4 = x := BitVec.and_allOnes
theorem and_ones_width17 (x : BitVec 17) : x &&& 0x1FFFF#17 = x := BitVec.and_allOnes

/-- The mask of TOUNS and TOSGN clears `w` and `sg` (30_encoding R77). -/
theorem fieldsOf_and_transpositionMask (c : CmdWord) :
    fieldsOf (c &&& 0xFFFFFCFF) = { fieldsOf c with w := false, sg := false } := by
  simp [fieldsOf, BitVec.extractLsb'_and, and_ones_width2, and_ones_width4, and_ones_width17]

/-- The mask of NEWGEN clears `mul`, `w`, `sg` and `chk` (30_encoding R77). -/
theorem fieldsOf_and_newgenMask (c : CmdWord) :
    fieldsOf (c &&& 0xFFFFF8CF) = { fieldsOf c with mul := 0, w := false, sg := false, chk := false } := by
  simp [fieldsOf, BitVec.extractLsb'_and, and_ones_width2, and_ones_width4, and_ones_width17]

/-- The mask of RDREG clears `reg` (30_encoding R77). -/
theorem fieldsOf_and_rdregMask (c : CmdWord) :
    fieldsOf (c &&& 0xFFFF87FF) = { fieldsOf c with reg := 0 } := by
  simp [fieldsOf, BitVec.extractLsb'_and, and_ones_width2, and_ones_width4, and_ones_width17]

theorem decode_touns_iff (c : CmdWord) :
    decode c = .ok (.touns (c.getLsbD 8) (c.getLsbD 9)) ↔ c &&& 0xFFFFFCFF = encode (.touns false false) := by
  rw [decode_eq_ok_iff, eq_encode_iff, fieldsOf_and_transpositionMask]
  simp [fieldsOf, instrFields]

theorem decode_tosgn_iff (c : CmdWord) :
    decode c = .ok (.tosgn (c.getLsbD 8) (c.getLsbD 9)) ↔ c &&& 0xFFFFFCFF = encode (.tosgn false false) := by
  rw [decode_eq_ok_iff, eq_encode_iff, fieldsOf_and_transpositionMask]
  simp [fieldsOf, instrFields]

/-- The rows of NEWGEN, one per variant, with the side condition that `mul` names a strategy. -/
theorem decode_newgenOf_iff (v : Machine.Variant) (c : CmdWord) :
    decode c = .ok (Machine.newgenOf v (c.extractLsb' 4 2) (c.getLsbD 8) (c.getLsbD 9) (c.getLsbD 10)) ↔
      c &&& 0xFFFFF8CF = encode (Machine.newgenOf v 0 false false false) ∧ c.extractLsb' 4 2 ≠ 3 := by
  rw [decode_eq_ok_iff, eq_encode_iff, fieldsOf_and_newgenMask, and_comm]
  cases v <;> simp [fieldsOf, instrFields, Machine.newgenOf]

theorem regLegal_iff_mem : ∀ reg : BitVec 4, regLegal reg ↔ reg.toNat ∈ [0, 1, 2, 3, 4, 5, 8, 9, 10] := by
  decide

theorem decode_rdreg_iff (c : CmdWord) :
    decode c = .ok (.rdreg (c.extractLsb' 11 4)) ↔ c &&& 0xFFFF87FF = encode (.rdreg 0) ∧
      (c.extractLsb' 11 4).toNat ∈ [0, 1, 2, 3, 4, 5, 8, 9, 10] := by
  rw [decode_eq_ok_iff, eq_encode_iff, fieldsOf_and_rdregMask, and_comm, ← regLegal_iff_mem]
  simp [fieldsOf, instrFields]

/-- Settles O8: row by row, each match being the word the encoder gives. -/
theorem opcodeRowsSelectCommands : Obligations.OpcodeRowsSelectCommands := fun c =>
  ⟨decode_eq_ok_iff_fullMask (i := .extmulS) trivial c,
    decode_eq_ok_iff_fullMask (i := .extmulO) trivial c,
    decode_eq_ok_iff_fullMask (i := .extmulI) trivial c,
    decode_eq_ok_iff_fullMask (i := .draw32) trivial c,
    decode_eq_ok_iff_fullMask (i := .draw64) trivial c,
    decode_touns_iff c, decode_tosgn_iff c,
    decode_newgenOf_iff .nr c, decode_newgenOf_iff .ru c, decode_newgenOf_iff .lz c,
    decode_eq_ok_iff_fullMask (i := .next) trivial c,
    decode_rdreg_iff c⟩


/-! ## The illegal words

R80 says which words are rejected, the decoder which are accepted: one lemma per opcode on the fields it
accepts, and R80's clauses are their negations. -/

theorem ne_three_iff : ∀ x : BitVec 2, x ≠ 3 ↔ x = 0 ∨ x = 1 ∨ x = 2 := by decide

section
variable (f : Fields)

theorem exists_decodeExtmul_iff : (∃ i, decodeExtmul f = .ok i) ↔
    (f.var = 0 ∧ f.w = false ∧ f.sg = false ∧ f.chk = false ∧ f.reg = 0) ∧ f.mul ≠ 3 := by
  simp only [decodeExtmul_eq_ok_iff, ne_three_iff, exists_and_left, exists_or, exists_eq, and_true]

theorem exists_decodeDraw_iff : (∃ i, decodeDraw f = .ok i) ↔
    f.mul = 0 ∧ f.var = 0 ∧ f.sg = false ∧ f.chk = false ∧ f.reg = 0 := by
  simp only [decodeDraw_eq_ok_iff, exists_and_left, exists_or, exists_eq, and_true]
  cases f.w <;> simp

theorem exists_decodeTransposition_iff (mk : Bool → Bool → Instr) :
    (∃ i, decodeTransposition mk f = .ok i) ↔
      f.mul = 0 ∧ f.var = 0 ∧ f.chk = false ∧ f.reg = 0 := by
  simp only [decodeTransposition_eq_ok_iff, exists_and_left, exists_eq, and_true]

theorem exists_decodeNewgen_iff : (∃ i, decodeNewgen f = .ok i) ↔
    f.reg = 0 ∧ f.mul ≠ 3 ∧ f.var ≠ 3 := by
  simp only [decodeNewgen_eq_ok_iff, ne_three_iff f.var, exists_and_left, exists_or, exists_eq, and_true]

theorem exists_decodeNext_iff : (∃ i, decodeNext f = .ok i) ↔
    f.mul = 0 ∧ f.var = 0 ∧ f.w = false ∧ f.sg = false ∧ f.chk = false ∧ f.reg = 0 := by
  simp only [decodeNext_eq_ok_iff, exists_and_left, exists_eq, and_true]

theorem exists_decodeRdreg_iff : (∃ i, decodeRdreg f = .ok i) ↔
    (f.mul = 0 ∧ f.var = 0 ∧ f.w = false ∧ f.sg = false ∧ f.chk = false) ∧ regLegal f.reg := by
  simp only [decodeRdreg_eq_ok_iff, exists_and_left, exists_eq, and_true]

theorem exists_decodeFields_iff : (∃ i, decodeFields f = .ok i) ↔ f.zero = 0 ∧
    (f.op = 1 ∧ (∃ i, decodeExtmul f = .ok i) ∨ f.op = 2 ∧ (∃ i, decodeDraw f = .ok i) ∨
      f.op = 3 ∧ (∃ i, decodeTransposition .touns f = .ok i) ∨
      f.op = 4 ∧ (∃ i, decodeTransposition .tosgn f = .ok i) ∨
      f.op = 5 ∧ (∃ i, decodeNewgen f = .ok i) ∨ f.op = 6 ∧ (∃ i, decodeNext f = .ok i) ∨
      f.op = 7 ∧ (∃ i, decodeRdreg f = .ok i)) := by
  simp only [decodeFields_eq_ok_iff, exists_and_left, exists_or]

end

theorem extractLsb'_one_eq_zero_iff (c : CmdWord) (n : Nat) :
    c.extractLsb' n 1 = 0 ↔ c.getLsbD n = false := by
  rw [BitVec.getLsbD_eq_extractLsb']
  generalize c.extractLsb' n 1 = b
  revert b
  decide

/-- The reserved values of `op` are those that no row of the opcode map has (30_encoding R72, R80 (b)). -/
theorem opcode_reserved_iff : ∀ op : BitVec 4, (op = 0 ∨ 8 ≤ op) ↔
    ¬(op = 1 ∨ op = 2 ∨ op = 3 ∨ op = 4 ∨ op = 5 ∨ op = 6 ∨ op = 7) := by
  decide

theorem mem_unnamed_iff_not_regLegal :
    ∀ reg : BitVec 4, reg ∈ [6, 7, 11, 12, 13, 14, 15] ↔ ¬regLegal reg := by
  decide

/-- R80 names exactly the words that decode to no command. -/
theorem illegalWord_iff_not_exists_decode (c : CmdWord) :
    Machine.IllegalWord c ↔ ¬∃ i, decode c = .ok i := by
  unfold Machine.IllegalWord decode
  simp only [opcode_reserved_iff, extractLsb'_one_eq_zero_iff, mem_unnamed_iff_not_regLegal,
    exists_decodeFields_iff, exists_decodeExtmul_iff, exists_decodeDraw_iff,
    exists_decodeTransposition_iff, exists_decodeNewgen_iff, exists_decodeNext_iff,
    exists_decodeRdreg_iff, fieldsOf]
  by_cases hop : c.extractLsb' 0 4 = 1 ∨ c.extractLsb' 0 4 = 2 ∨ c.extractLsb' 0 4 = 3 ∨
      c.extractLsb' 0 4 = 4 ∨ c.extractLsb' 0 4 = 5 ∨ c.extractLsb' 0 4 = 6 ∨ c.extractLsb' 0 4 = 7
  · obtain hop | hop | hop | hop | hop | hop | hop := hop
    -- with the opcode known, both sides are one disjunction: a reserved bit, an unused field, a reserved value
    all_goals simp [hop, not_and_or, or_assoc, -not_and]
  · refine iff_of_true (.inr (.inl hop)) ?_
    simp only [not_or] at hop
    simp only [hop, false_and, or_false, and_false, not_false_eq_true]

end Sys2Proof

namespace Sys2Proof.Machine

/-! ## Step S1 and the answer ERR_ILLEGAL -/

/-- Step S1 where it is enabled and the host presents a command (10_state R35). -/
theorem step_of_issue {s : State} {c : Command} {rest : List HostMove} (he : s.issueEnabled)
    (hh : s.host = .issue c :: rest) : step s = runCommand exec (s.present c rest) := by
  unfold step stepWith
  rw [hh]
  exact if_pos ((ready_iff s).mpr he)

/-- An illegal word is answered ERR_ILLEGAL (30_encoding R80). -/
theorem runCommand_of_illegalWord {s : State} (run : Instr → State → Result)
    (h : IllegalWord s.bus.cmd) : runCommand run s = .next (s.failed .illegal) := by
  obtain ⟨i, hd, -⟩ | ⟨-, -, hr⟩ := runCommand_cases (run := run) (s := s) rfl
  · exact absurd ⟨i, hd⟩ ((illegalWord_iff_not_exists_decode _).mp h)
  · exact hr

/-- A legal NEWGEN is never answered ERR_ILLEGAL. -/
theorem newgen_err_ne_illegal {v : Variant} {mul : BitVec 2} {w sg chk : Bool} {s t : State}
    (hmul : mulLegal mul) (h : newgen v mul w sg chk s = .next t) : t.rsp.err ≠ .illegal := by
  obtain ⟨h3, -⟩ | ⟨-, -, ht⟩ | ⟨-, -, ⟨-, -, ht⟩ | ⟨-, -, ht⟩ | ⟨-, ht⟩⟩ := newgen_cases h
  · exact absurd h3 hmul
  · cases ht; nofun
  · cases ht; nofun
  · cases ht
  · cases ht; nofun

/-- A well-formed command that responds in S1 is not answered ERR_ILLEGAL (60_exceptions R202). -/
theorem exec_err_ne_illegal {i : Instr} {s t : State} (hwf : WellFormed i) (hs : s.rspv = false)
    (h : exec i s = .next t) (ht : t.rspv = true) : t.rsp.err ≠ .illegal := by
  cases i with
  | extmulS | extmulO | touns | tosgn => cases h; nofun
  | extmulI =>
    obtain ⟨-, hr⟩ | ⟨-, hr⟩ := execExtmulI_cases h
    · cases hr; nofun
    · cases hr; nofun
  | draw32 | draw64 => cases h; exact absurd (hs.symm.trans ht) nofun
  | newgenNR => exact newgen_err_ne_illegal (v := .nr) hwf h
  | newgenRU => exact newgen_err_ne_illegal (v := .ru) hwf h
  | newgenLZ => exact newgen_err_ne_illegal (v := .lz) hwf h
  | next =>
    obtain ⟨-, hr⟩ | ⟨-, hr⟩ := execNext_cases h
    · cases hr; nofun
    · cases hr; simp [hs] at ht
  | rdreg reg =>
    obtain ⟨v, -, hr⟩ | ⟨hnone, -⟩ := execRdreg_cases h
    · cases hr; nofun
    · have hsome := (readReg_isSome_iff s reg).mpr hwf
      exact absurd hsome (by simp [hnone])

/-- Settles O11: an illegal word decodes to no command and S1 answers it; any other decodes to a
well-formed command, which has no reason to answer ERR_ILLEGAL. -/
theorem illegalWordsAnsweredWithoutEffect : Obligations.IllegalWordsAnsweredWithoutEffect := by
  refine ⟨fun s c rest he hh => ⟨fun hill => ?_, fun hleg t h ht => ?_⟩, ?_, ?_⟩
  · rw [step_of_issue he hh]
    exact runCommand_of_illegalWord exec hill
  · obtain ⟨i, hd⟩ := not_not.mp ((illegalWord_iff_not_exists_decode _).not.mp hleg)
    rw [stepRunsDecodedCommand s c rest i he hh hd] at h
    obtain ⟨hwf, -⟩ := decode_eq_ok_iff.mp hd
    exact exec_err_ne_illegal (s := s.present c rest) hwf he.2 h ht
  · unfold IllegalWord
    decide
  · unfold IllegalWord
    decide

/-! ## The operand bits a command reads

A command copies nothing of the port into the state but through the operand bits it reads, so another
port with the same bits changes the port in the outcome and nothing else. -/

/-- An outcome with another content of the command port. -/
def onPort (c : Command) : Result → Result
  | .next s => .next { s with bus := c }
  | .fault f => .fault f
  | .refused r => .refused r

theorem newgen_onPort {c c' : Command} {w : Bool} (h0 : low (widthOf w) c.op0 = low (widthOf w) c'.op0)
    (h1 : low (widthOf w) c.op1 = low (widthOf w) c'.op1) (v : Variant) (mul : BitVec 2) (sg chk : Bool)
    (s : State) :
    newgen v mul w sg chk { s with bus := c' } = onPort c' (newgen v mul w sg chk { s with bus := c }) := by
  unfold newgen
  dsimp only
  rw [h0, h1]
  split_ifs <;> rfl

theorem refreshNoReuse_onPort (s : State) (c : Command) :
    refreshNoReuse { s with bus := c } = { refreshNoReuse s with bus := c } := by
  unfold refreshNoReuse
  dsimp only
  rw [show State.cfgVar { s with bus := c } = s.cfgVar from rfl]
  split <;> rfl

theorem execNext_onPort (s : State) (c c' : Command) :
    execNext { s with bus := c' } = onPort c' (execNext { s with bus := c }) := by
  unfold execNext
  simp only [refreshNoReuse_onPort]
  split <;> rfl

theorem execRdreg_onPort (reg : BitVec 4) (s : State) (c c' : Command) :
    execRdreg reg { s with bus := c' } = onPort c' (execRdreg reg { s with bus := c }) := by
  unfold execRdreg
  rw [show State.readReg { s with bus := c' } reg = State.readReg { s with bus := c } reg from rfl]
  split <;> rfl

/-- A command's outcome depends on the port through the operand bits it reads (30_encoding R75). -/
theorem exec_onPort {i : Instr} {c c' : Command} (h : SameReadOperands c c' i) (s : State) :
    exec i { s with bus := c' } = onPort c' (exec i { s with bus := c }) := by
  cases i with
  | extmulS =>
    obtain ⟨h0, h1⟩ := h
    simp only [exec, execExtmulS, h0, h1]
    rfl
  | extmulO =>
    obtain ⟨h0, h1⟩ := h
    simp only [exec, execExtmulO, h0, h1]
    rfl
  | extmulI =>
    obtain ⟨h0, h1⟩ := h
    simp only [exec, execExtmulI, h0, h1]
    split <;> rfl
  | draw32 | draw64 => rfl
  | touns w sg =>
    simp only [exec, execTouns, show low (widthOf w) c.op0 = low (widthOf w) c'.op0 from h]
    rfl
  | tosgn w sg =>
    simp only [exec, execTosgn, show low (widthOf w) c.op0 = low (widthOf w) c'.op0 from h]
    rfl
  | newgenNR mul w sg chk => exact newgen_onPort h.1 h.2 .nr mul sg chk s
  | newgenRU mul w sg chk => exact newgen_onPort h.1 h.2 .ru mul sg chk s
  | newgenLZ mul w sg chk => exact newgen_onPort h.1 h.2 .lz mul sg chk s
  | next => exact execNext_onPort s c c'
  | rdreg reg => exact execRdreg_onPort reg s c c'

/-- Settles O48: the two outcomes are equal but for the port. -/
theorem unreadOperandBitsHaveNoEffect : Obligations.UnreadOperandBitsHaveNoEffect := by
  intro i s c c' h
  rw [exec_onPort h s]
  exact ⟨fun t ht => by rw [ht]; rfl, fun r hr => by rw [hr]; rfl⟩

end Sys2Proof.Machine

/-! # Proofs about the extended multiply -/

namespace Sys2Proof.Machine

/-! ## The exact product

An exact pair of halves is the only one, so each strategy below is compared with `extmul` through the one
equation of R100. -/

theorem Product.eq_of_toNat {p q : Product} (hu : p.upper.toNat = q.upper.toNat)
    (hl : p.lower.toNat = q.lower.toNat) : p = q := by
  cases p
  cases q
  exact congrArg₂ Product.mk (BitVec.eq_of_toNat_eq hu) (BitVec.eq_of_toNat_eq hl)

theorem extmul_lower_toNat (x y : Word) : (extmul x y).lower.toNat = x.toNat * y.toNat % 2 ^ 64 :=
  BitVec.toNat_ofNat ..

theorem extmul_upper_toNat (x y : Word) : (extmul x y).upper.toNat = x.toNat * y.toNat / 2 ^ 64 := by
  have hlt : x.toNat * y.toNat < 2 ^ 64 * 2 ^ 64 := Nat.mul_lt_mul'' x.isLt y.isLt
  exact (BitVec.toNat_ofNat ..).trans (Nat.mod_eq_of_lt (Nat.div_lt_of_lt_mul hlt))

theorem extmul_exact (x y : Word) :
    (extmul x y).upper.toNat * 2 ^ 64 + (extmul x y).lower.toNat = x.toNat * y.toNat := by
  rw [extmul_upper_toNat, extmul_lower_toNat]
  exact Nat.div_add_mod' ..

/-- Settles O18. -/
theorem extmulIsExactProduct : Obligations.ExtmulIsExactProduct := fun x y =>
  ⟨extmul_exact x y, extmul_lower_toNat x y, extmul_upper_toNat x y⟩

/-- The halves of the exact product are determined by R100's equation. -/
theorem eq_extmul_of_exact {p : Product} {x y : Word}
    (h : p.upper.toNat * 2 ^ 64 + p.lower.toNat = x.toNat * y.toNat) : p = extmul x y := by
  have hp := p.lower.isLt
  apply Product.eq_of_toNat
  · rw [extmul_upper_toNat]
    omega
  · rw [extmul_lower_toNat]
    omega

theorem extmul_comm (x y : Word) : extmul x y = extmul y x :=
  eq_extmul_of_exact ((extmul_exact x y).trans (Nat.mul_comm ..))

/-! ## The 32-bit digits of a word -/

theorem lo32_lt (v : Word) : (lo32 v).toNat < 2 ^ 32 := by
  rw [lo32_toNat]
  exact Nat.mod_lt _ (Nat.two_pow_pos 32)

theorem hi32_lt (v : Word) : (hi32 v).toNat < 2 ^ 32 := by
  rw [hi32_toNat]
  exact Nat.div_lt_of_lt_mul v.isLt

theorem hi32_add_lo32 (v : Word) : (hi32 v).toNat * 2 ^ 32 + (lo32 v).toNat = v.toNat := by
  rw [hi32_toNat, lo32_toNat]
  exact Nat.div_add_mod' ..

theorem digit_mul_toNat {a b : Word} (ha : a.toNat < 2 ^ 32) (hb : b.toNat < 2 ^ 32) :
    (a * b).toNat = a.toNat * b.toNat :=
  BitVec.toNat_mul_of_lt (show _ < 2 ^ 32 * 2 ^ 32 from Nat.mul_lt_mul'' ha hb)

/-- A product of two digits leaves room for two more digits in the word (R102). -/
theorem digit_mul_toNat_le {a b : Word} (ha : a.toNat < 2 ^ 32) (hb : b.toNat < 2 ^ 32) :
    (a * b).toNat ≤ (2 ^ 32 - 1) * (2 ^ 32 - 1) := by
  rw [digit_mul_toNat ha hb]
  exact Nat.mul_le_mul (Nat.le_pred_of_lt ha) (Nat.le_pred_of_lt hb)

theorem digits_lo32_toNat (hi lo : Word) :
    (digits (lo32 hi) (lo32 lo)).toNat = (lo32 hi).toNat * 2 ^ 32 + (lo32 lo).toNat :=
  digits_toNat _ _ (lo32_lt hi) (lo32_lt lo)

/-- The product as the four partial products of R101, each in its column. -/
theorem mul_eq_partialProducts (x y : Word) : x.toNat * y.toNat =
    (lo32 x * lo32 y).toNat + ((lo32 x * hi32 y).toNat + (hi32 x * lo32 y).toNat) * 2 ^ 32 +
      (hi32 x * hi32 y).toNat * 2 ^ 64 := by
  rw [digit_mul_toNat (lo32_lt x) (lo32_lt y), digit_mul_toNat (lo32_lt x) (hi32_lt y),
    digit_mul_toNat (hi32_lt x) (lo32_lt y), digit_mul_toNat (hi32_lt x) (hi32_lt y)]
  calc x.toNat * y.toNat
      = ((hi32 x).toNat * 2 ^ 32 + (lo32 x).toNat) * ((hi32 y).toNat * 2 ^ 32 + (lo32 y).toNat) := by
        rw [hi32_add_lo32, hi32_add_lo32]
    _ = _ := by ring

theorem partialProducts_lt (x y : Word) :
    (lo32 x * lo32 y).toNat + ((lo32 x * hi32 y).toNat + (hi32 x * lo32 y).toNat) * 2 ^ 32 +
      (hi32 x * hi32 y).toNat * 2 ^ 64 < 2 ^ 128 := by
  rw [← mul_eq_partialProducts]
  exact show _ < 2 ^ 64 * 2 ^ 64 from Nat.mul_lt_mul'' x.isLt y.isLt

/-! ## The schoolbook and the optimized strategy -/

/-- The column sums of four partial products do not wrap, and their carries telescope (R101). -/
theorem schoolbookColumns_exact {p00 p01 p10 p11 s1 s2 s3 : Word}
    (h1 : s1 = hi32 p00 + lo32 p01 + lo32 p10)
    (h2 : s2 = hi32 s1 + hi32 p01 + hi32 p10 + lo32 p11)
    (h3 : s3 = hi32 s2 + hi32 p11)
    (hlt : p00.toNat + (p01.toNat + p10.toNat) * 2 ^ 32 + p11.toNat * 2 ^ 64 < 2 ^ 128) :
    ((lo32 s3).toNat * 2 ^ 32 + (lo32 s2).toNat) * 2 ^ 64 +
        ((lo32 s1).toNat * 2 ^ 32 + (lo32 p00).toNat) =
      p00.toNat + (p01.toNat + p10.toNat) * 2 ^ 32 + p11.toNat * 2 ^ 64 := by
  have e1 : s1.toNat = p00.toNat / 2 ^ 32 + p01.toNat % 2 ^ 32 + p10.toNat % 2 ^ 32 := by
    simp only [h1, BitVec.toNat_add, hi32_toNat, lo32_toNat]
    omega
  have e2 : s2.toNat =
      s1.toNat / 2 ^ 32 + p01.toNat / 2 ^ 32 + p10.toNat / 2 ^ 32 + p11.toNat % 2 ^ 32 := by
    simp only [h2, BitVec.toNat_add, hi32_toNat, lo32_toNat]
    omega
  have e3 : s3.toNat = s2.toNat / 2 ^ 32 + p11.toNat / 2 ^ 32 := by
    simp only [h3, BitVec.toNat_add, hi32_toNat]
    omega
  simp only [lo32_toNat]
  omega

theorem extmulSchoolbook_eq (x y : Word) : extmulSchoolbook x y = extmul x y := by
  apply eq_extmul_of_exact
  unfold extmulSchoolbook
  dsimp only
  rw [mul_eq_partialProducts, digits_lo32_toNat, digits_lo32_toNat]
  exact schoolbookColumns_exact rfl rfl rfl (partialProducts_lt x y)

/-- The folded carries of R102 fit in a word each, and account for all of the four partial products. -/
theorem foldedColumns_exact {p00 p01 p10 p11 t tl : Word}
    (h01 : p01.toNat ≤ (2 ^ 32 - 1) * (2 ^ 32 - 1)) (h10 : p10.toNat ≤ (2 ^ 32 - 1) * (2 ^ 32 - 1))
    (ht : t = p10 + hi32 p00) (htl : tl = p01 + lo32 t)
    (hlt : p00.toNat + (p01.toNat + p10.toNat) * 2 ^ 32 + p11.toNat * 2 ^ 64 < 2 ^ 128) :
    (p11 + hi32 t + hi32 tl).toNat * 2 ^ 64 + ((lo32 tl).toNat * 2 ^ 32 + (lo32 p00).toNat) =
      p00.toNat + (p01.toNat + p10.toNat) * 2 ^ 32 + p11.toNat * 2 ^ 64 := by
  have et : t.toNat = p10.toNat + p00.toNat / 2 ^ 32 := by
    simp only [ht, BitVec.toNat_add, hi32_toNat]
    omega
  have etl : tl.toNat = p01.toNat + t.toNat % 2 ^ 32 := by
    simp only [htl, BitVec.toNat_add, lo32_toNat]
    omega
  simp only [BitVec.toNat_add, hi32_toNat, lo32_toNat]
  omega

theorem extmulOptimized_eq (x y : Word) : extmulOptimized x y = extmul x y := by
  apply eq_extmul_of_exact
  unfold extmulOptimized
  dsimp only
  rw [mul_eq_partialProducts, digits_lo32_toNat]
  exact foldedColumns_exact (digit_mul_toNat_le (lo32_lt x) (hi32_lt y))
    (digit_mul_toNat_le (hi32_lt x) (lo32_lt y)) rfl rfl (partialProducts_lt x y)

/-! ## The EXTMUL commands -/

/-- Every available strategy finishes with the same product (R105 to R109). -/
theorem exec_extmul_of_available {i : Instr} {s : State}
    (h : i = .extmulS ∨ i = .extmulO ∨ (i = .extmulI ∧ s.par.hasWideMul = true)) :
    exec i s = finishExtmul (extmul s.bus.op0 s.bus.op1) s := by
  obtain rfl | rfl | ⟨rfl, hwide⟩ := h
  · exact congrArg (finishExtmul · s) (extmulSchoolbook_eq _ _)
  · exact congrArg (finishExtmul · s) (extmulOptimized_eq _ _)
  · exact if_pos hwide

/-- Settles O21. -/
theorem extmulCommandsStoreAndReturnProduct : Obligations.ExtmulCommandsStoreAndReturnProduct :=
  fun _ s h => ⟨(extmul s.bus.op0 s.bus.op1).upper, (extmul s.bus.op0 s.bus.op1).lower,
    extmul_exact _ _, exec_extmul_of_available h⟩

/-! ## `CFG.MUL` in the evaluation of a NEXT

The evaluation reads the width and the signedness from `CFG` and nothing else, and it never writes it. -/

/-- The state with another content of `CFG`. -/
def State.withCfg (s : State) (cfg : Word) : State := { s with cfg := cfg }

section
variable {s : State} {cfg : Word}

theorem acceptDraw_withCfg (u : Word) (hw : (s.withCfg cfg).cfgWidth = s.cfgWidth)
    (hsg : (s.withCfg cfg).cfgSigned = s.cfgSigned) :
    acceptDraw u (s.withCfg cfg) = (acceptDraw u s).withCfg cfg := by
  unfold acceptDraw
  rw [hw, hsg]
  rfl

theorem ensureThreshold_withCfg (hw : (s.withCfg cfg).cfgWidth = s.cfgWidth) :
    ensureThreshold (s.withCfg cfg) = (ensureThreshold s).withCfg cfg := by
  unfold ensureThreshold
  rw [hw, show (s.withCfg cfg).thrv = s.thrv from rfl]
  split <;> rfl

theorem decideDraw_withCfg (p : Product) (hw : (s.withCfg cfg).cfgWidth = s.cfgWidth)
    (hsg : (s.withCfg cfg).cfgSigned = s.cfgSigned) :
    decideDraw p (s.withCfg cfg) = (decideDraw p s).withCfg cfg := by
  have hw' : ((ensureThreshold s).withCfg cfg).cfgWidth = (ensureThreshold s).cfgWidth :=
    hw.trans (ensureThreshold_cfgWidth s).symm
  have hsg' : ((ensureThreshold s).withCfg cfg).cfgSigned = (ensureThreshold s).cfgSigned :=
    hsg.trans (ensureThreshold_cfgSigned s).symm
  unfold decideDraw
  dsimp only
  rw [ensureThreshold_withCfg hw, hw, hw', show (s.withCfg cfg).thrv = s.thrv from rfl,
    show (s.withCfg cfg).dist = s.dist from rfl,
    show ((ensureThreshold s).withCfg cfg).thr = (ensureThreshold s).thr from rfl]
  split_ifs
  · exact acceptDraw_withCfg p.upper hw hsg
  · exact acceptDraw_withCfg p.upper hw' hsg'
  · rfl

theorem evalNext_withCfg (hw : (s.withCfg cfg).cfgWidth = s.cfgWidth)
    (hsg : (s.withCfg cfg).cfgSigned = s.cfgSigned) :
    evalNext (s.withCfg cfg) = (evalNext s).withCfg cfg := by
  unfold evalNext
  dsimp only
  rw [hw, hsg, show (s.withCfg cfg).dist = s.dist from rfl,
    show (s.withCfg cfg).acc = s.acc from rfl]
  split_ifs
  · rfl
  · exact decideDraw_withCfg (s := s.setProduct _) _ hw hsg

end

/-! Another strategy changes bits 5 and 4 of `CFG`; width and signedness stand above them (10_state R28). -/

theorem cfgWithMul_getLsbD_w (cfg : Word) (m : BitVec 2) :
    (cfgWithMul cfg m).getLsbD 8 = cfg.getLsbD 8 := by
  simp [cfgWithMul]

theorem cfgWithMul_getLsbD_sg (cfg : Word) (m : BitVec 2) :
    (cfgWithMul cfg m).getLsbD 9 = cfg.getLsbD 9 := by
  simp [cfgWithMul]

/-- Settles O20: the strategies compute one product, and `CFG.MUL` is none of the bits S3 reads. -/
theorem multiplyStrategiesBitIdentical : Obligations.MultiplyStrategiesBitIdentical := by
  refine ⟨fun x y => ⟨extmulSchoolbook_eq x y, extmulOptimized_eq x y⟩, fun s => ?_, fun s m => ?_⟩
  · have hS : exec .extmulS s = finishExtmul (extmul s.bus.op0 s.bus.op1) s :=
      exec_extmul_of_available (.inl rfl)
    rw [hS]
    exact ⟨exec_extmul_of_available (.inr (.inl rfl)),
      fun hwide => exec_extmul_of_available (.inr (.inr ⟨rfl, hwide⟩))⟩
  · exact evalNext_withCfg (congrArg widthOf (cfgWithMul_getLsbD_w s.cfg m))
      (cfgWithMul_getLsbD_sg s.cfg m)

/-! ## The laws at the working width

At either width the halves are the quotient and the remainder of the product by `2^W`; the laws of R110
are facts about these two numbers. -/

section
variable {w : Width} {x y : Word}

theorem extmulW_lower_toNat (w : Width) (x y : Word) :
    (extmulW w x y).lower.toNat = x.toNat * y.toNat % 2 ^ w.bits := by
  cases w with
  | w32 =>
    rw [extmulW, lo32_toNat, extmul_lower_toNat]
    exact Nat.mod_mod_of_dvd _ (two_pow_bits_dvd .w32)
  | w64 => exact extmul_lower_toNat x y

theorem extmulW_upper_toNat (hx : x.toNat < 2 ^ w.bits) (hy : y.toNat < 2 ^ w.bits) :
    (extmulW w x y).upper.toNat = x.toNat * y.toNat / 2 ^ w.bits := by
  cases w with
  | w32 =>
    have hlt : x.toNat * y.toNat < 2 ^ 64 :=
      show _ < 2 ^ 32 * 2 ^ 32 from Nat.mul_lt_mul'' hx hy
    rw [extmulW, hi32_toNat, extmul_lower_toNat, Nat.mod_eq_of_lt hlt]
    rfl
  | w64 => exact extmul_upper_toNat x y

theorem extmulW_exact (hx : x.toNat < 2 ^ w.bits) (hy : y.toNat < 2 ^ w.bits) :
    (extmulW w x y).upper.toNat * 2 ^ w.bits + (extmulW w x y).lower.toNat = x.toNat * y.toNat := by
  rw [extmulW_upper_toNat hx hy, extmulW_lower_toNat]
  exact Nat.div_add_mod' ..

/-- A product of W bits has an empty upper half. -/
theorem extmulW_of_mul_lt {p : Word} (hx : x.toNat < 2 ^ w.bits) (hy : y.toNat < 2 ^ w.bits)
    (hp : p.toNat < 2 ^ w.bits) (h : x.toNat * y.toNat = p.toNat) :
    extmulW w x y = { upper := 0, lower := p } := by
  apply Product.eq_of_toNat
  · rw [extmulW_upper_toNat hx hy, h, Nat.div_eq_of_lt hp]
    rfl
  · rw [extmulW_lower_toNat, h, Nat.mod_eq_of_lt hp]

theorem extmulW_comm (w : Width) (x y : Word) : extmulW w x y = extmulW w y x := by
  cases w with
  | w32 => rw [extmulW, extmulW, extmul_comm]
  | w64 => exact extmul_comm x y

theorem extmulW_upper_lt (hx : x.toNat < 2 ^ w.bits) (hy : y.toNat < 2 ^ w.bits) (h1 : 1 ≤ y.toNat) :
    (extmulW w x y).upper.toNat < y.toNat := by
  rw [extmulW_upper_toNat hx hy]
  exact Nat.div_lt_of_lt_mul (Nat.mul_lt_mul_of_pos_right hx h1)

theorem two_lt_two_pow_bits (w : Width) : 2 < 2 ^ w.bits := by cases w <;> decide

/-- The upper half is zero or below the second operand. -/
theorem extmulW_upper_le (hx : x.toNat < 2 ^ w.bits) (hy : y.toNat < 2 ^ w.bits) :
    (extmulW w x y).upper.toNat ≤ y.toNat - 1 := by
  rcases Nat.eq_zero_or_pos y.toNat with h0 | h1
  · rw [extmulW_upper_toNat hx hy, h0, Nat.mul_zero, Nat.zero_div]
  · exact Nat.le_pred_of_lt (extmulW_upper_lt hx hy h1)

/-- The largest upper half needs each operand, as the bound of the other's, to be the largest. -/
theorem extmulW_upper_eq_max_iff (hx : x.toNat < 2 ^ w.bits) (hy : y.toNat < 2 ^ w.bits) :
    (extmulW w x y).upper.toNat = 2 ^ w.bits - 2 ↔
      x.toNat = 2 ^ w.bits - 1 ∧ y.toNat = 2 ^ w.bits - 1 := by
  constructor
  · intro h
    have h2 := two_lt_two_pow_bits w
    have hyle := extmulW_upper_le hx hy
    have hxle := extmulW_upper_le hy hx
    rw [extmulW_comm] at hxle
    omega
  · rintro ⟨hxmax, hymax⟩
    rw [extmulW_upper_toNat hx hy, hxmax, hymax]
    cases w <;> rfl

theorem extmulW_upper_of_two_pow {k : Nat} (hx : x.toNat < 2 ^ w.bits) (hy : y.toNat < 2 ^ w.bits)
    (hk : k < w.bits) (h : y.toNat = 2 ^ k) :
    (extmulW w x y).upper.toNat = x.toNat >>> (w.bits - k) := by
  rw [extmulW_upper_toNat hx hy, h, Nat.shiftRight_eq_div_pow]
  calc x.toNat * 2 ^ k / 2 ^ w.bits
      = x.toNat * 2 ^ k / (2 ^ (w.bits - k) * 2 ^ k) := by rw [Nat.pow_sub_mul_pow 2 hk.le]
    _ = x.toNat / 2 ^ (w.bits - k) := Nat.mul_div_mul_right _ _ (Nat.two_pow_pos k)

end

/-- Settles O19: the laws one by one, `upper ≤ 2^W - 2` being the bound by the second operand. -/
theorem extmulLawsAtBothWidths : Obligations.ExtmulLawsAtBothWidths := by
  refine ⟨rfl, fun w x y hx hy => ?_⟩
  have hpow := two_lt_two_pow_bits w
  have h0 : (0 : Word).toNat < 2 ^ w.bits := Nat.two_pow_pos _
  have h1 : (1 : Word).toNat < 2 ^ w.bits := by cases w <;> decide
  have hle := extmulW_upper_le hx hy
  refine ⟨extmulW_exact hx hy, ?_, extmulW_of_mul_lt hx h0 h0 (Nat.mul_zero _),
    extmulW_of_mul_lt h0 hy h0 (Nat.zero_mul _), extmulW_of_mul_lt hx h1 hx (Nat.mul_one _),
    extmulW_comm w x y, by omega, extmulW_upper_eq_max_iff hx hy, extmulW_upper_lt hx hy,
    fun k hk h => ⟨extmulW_upper_of_two_pow hx hy hk h, ?_⟩⟩
  · rw [extmulW_lower_toNat]
    exact Nat.mod_lt _ (Nat.two_pow_pos _)
  · rw [extmulW_lower_toNat, h, Nat.shiftLeft_eq]

end Sys2Proof.Machine

/-! # Proofs about the bit source adapter -/

namespace Sys2Proof.Machine

/-! ## The word that S2 folds into `ACC` -/

/-- The engine port carries ENGW bits (20_memory R55). -/
theorem State.engineWordAt_lt (s : State) (n : Nat) : (s.engineWordAt n).toNat < 2 ^ s.par.engw.bits :=
  low_lt _ _

/-- A shift and an OR append a word below what is there, and drop what leaves the register. -/
theorem shiftLeft_or_toNat (acc : Word) {e : Word} {n : Nat} (he : e.toNat < 2 ^ n) :
    (acc <<< n ||| e).toNat = (acc.toNat * 2 ^ n + e.toNat) % 2 ^ 64 := by
  rw [BitVec.toNat_or, BitVec.toNat_shiftLeft, ← Nat.shiftLeft_eq, Nat.shiftLeft_add_eq_or_of_lt he,
    Nat.or_mod_two_pow, Nat.mod_eq_of_lt e.isLt]

/-- The two cases of R123 as numbers. -/
theorem foldWord_toNat {engw : Width} {e : Word} (cw : Width) (acc : Word)
    (he : e.toNat < 2 ^ engw.bits) :
    (foldWord engw cw acc e).toNat =
      if cw.bits ≤ engw.bits then e.toNat % 2 ^ cw.bits
      else (acc.toNat * 2 ^ engw.bits + e.toNat) % 2 ^ cw.bits := by
  unfold foldWord
  split
  · exact low_toNat cw e
  · rw [low_toNat, shiftLeft_or_toNat acc he, Nat.mod_mod_of_dvd _ (two_pow_bits_dvd cw)]

theorem foldWord_of_le {engw w : Width} (h : w.bits ≤ engw.bits) (acc e : Word) :
    foldWord engw w acc e = low w e := if_pos h

/-- In the concatenating case S2 puts the word below what is there (41_adapter R121). -/
theorem foldWord_w32_w64 (acc e : Word) : foldWord .w32 .w64 acc e = digits acc e := rfl

/-- The first word of a draw stands alone in `ACC`, which the start of the draw cleared. -/
theorem digits_zero (e : Word) : digits 0 e = e := by simp [digits]

/-! ## The engine step -/

theorem acceptWord_of_one {s : State} (hc : s.cnt = 1) (e : Word) : s.acceptWord e = .next { s with
    acc := foldWord s.par.engw s.cw s.acc e
    cnt := 0
    phase := .eval } := by
  simp only [State.acceptWord, hc]

theorem acceptWord_of_two {s : State} (hc : s.cnt = 2) (e : Word) : s.acceptWord e = .next { s with
    acc := foldWord s.par.engw s.cw s.acc e
    cnt := 1 } := by
  simp only [State.acceptWord, hc]

section
variable {s : State} (hp : s.phase = .fill) (ha : s.engineAnswers 1)
include hp

theorem coreStep_of_fill : coreStep s = fillStep s := by
  rw [coreStep, hp]

include ha

theorem coreStep_of_answer : coreStep s =
    State.acceptWord { s with engine := s.engine.advance 1 } (s.engineWordAt s.engine.pos) := by
  rw [coreStep_of_fill hp, fillStep_eq, if_pos ha]

theorem coreStep_of_lastWord (hc : s.cnt = 1) : coreStep s = .next { s with
    acc := foldWord s.par.engw s.cw s.acc (s.engineWordAt s.engine.pos)
    cnt := 0
    phase := .eval
    engine := s.engine.advance 1 } :=
  (coreStep_of_answer hp ha).trans (acceptWord_of_one (s := { s with engine := s.engine.advance 1 }) hc _)

theorem coreStep_of_firstWord (hc : s.cnt = 2) : coreStep s = .next { s with
    acc := foldWord s.par.engw s.cw s.acc (s.engineWordAt s.engine.pos)
    cnt := 1
    engine := s.engine.advance 1 } :=
  (coreStep_of_answer hp ha).trans (acceptWord_of_two (s := { s with engine := s.engine.advance 1 }) hc _)

end

/-- Settles O23: the step folds one word, and the fold is the arithmetic of R123 because the word has
ENGW bits. -/
theorem engineStepFoldsOneWord : Obligations.EngineStepFoldsOneWord := by
  intro s hp e x
  have hx : BitVec.ofNat 64 x = foldWord s.par.engw s.cw s.acc e :=
    (congrArg (BitVec.ofNat 64) (foldWord_toNat s.cw s.acc (s.engineWordAt_lt _))).symm.trans
      (BitVec.ofNat_toNat ..)
  rw [hx]
  exact ⟨coreStep_of_lastWord hp, coreStep_of_firstWord hp, coreStep_of_silent hp⟩

/-! ## The start of a draw -/

/-- One word where the engine is as wide as the draw, two in the concatenating case (41_adapter R122). -/
theorem wordsPerDraw_eq (engw w : Width) :
    wordsPerDraw engw w = if engw = .w32 ∧ w = .w64 then 2 else 1 := by
  cases engw <;> cases w <;> rfl

theorem exec_draw_of_width {i : Instr} {w : Width} (h : i = .draw32 ∧ w = .w32 ∨ i = .draw64 ∧ w = .w64)
    (s : State) : exec i s = .next (State.startDraw { s with cur := .drawop } w) := by
  obtain ⟨rfl, rfl⟩ | ⟨rfl, rfl⟩ := h <;> rfl

/-- Settles O22: both commands are the start of a draw, and only a 64-bit draw from a 32-bit engine needs
a second word. -/
theorem drawCommandsStartADraw : Obligations.DrawCommandsStartADraw := by
  intro s
  rw [exec_draw_of_width (.inl ⟨rfl, rfl⟩), exec_draw_of_width (.inr ⟨rfl, rfl⟩), State.startDraw,
    State.startDraw, wordsPerDraw_eq, wordsPerDraw_eq]
  cases s.par.engw <;> exact ⟨rfl, rfl⟩

/-! ## A whole draw -/

/-- The draw takes one word unless it is the concatenating case (41_adapter R120). -/
theorem bits_le_of_not_concat {engw w : Width} (h : ¬(engw = .w32 ∧ w = .w64)) : w.bits ≤ engw.bits := by
  revert h
  cases engw <;> cases w <;> decide

theorem State.drawAt_of_concat {s : State} {w : Width} (h : s.par.engw = .w32 ∧ w = .w64) (n : Nat) :
    s.drawAt w n = digits (s.engineWordAt n) (s.engineWordAt (n + 1)) := by
  obtain ⟨he, rfl⟩ := h
  simp only [State.drawAt, he]

/-- A draw from one word is its low W bits: all of them where the widths agree, the low half of a wider
word (41_adapter R120). -/
theorem State.drawAt_of_not_concat {s : State} {w : Width} (h : ¬(s.par.engw = .w32 ∧ w = .w64)) (n : Nat) :
    s.drawAt w n = low w (s.engineWordAt n) := by
  have hlt := s.engineWordAt_lt n
  cases w with
  | w32 =>
    cases he : s.par.engw with
    | w32 =>
      rw [he] at hlt
      simp only [State.drawAt, he, low_of_lt hlt]
    | w64 => simp only [State.drawAt, he, lo32_eq_low]
  | w64 =>
    cases he : s.par.engw with
    | w32 => exact absurd ⟨he, rfl⟩ h
    | w64 => simp only [State.drawAt, he, low_w64]

theorem State.drawAt_of_engw {s : State} {w : Width} (h : s.par.engw = w) (n : Nat) :
    s.drawAt w n = s.engineWordAt n := by
  subst h
  rw [State.drawAt_of_not_concat (fun h => nomatch h.1.symm.trans h.2),
    low_of_lt (s.engineWordAt_lt n)]

theorem State.drawAt_concat_toNat {s : State} {w : Width} (h : s.par.engw = .w32 ∧ w = .w64) (n : Nat) :
    (s.drawAt w n).toNat = (s.engineWordAt n).toNat * 2 ^ 32 + (s.engineWordAt (n + 1)).toNat := by
  have hlt : ∀ m, (s.engineWordAt m).toNat < 2 ^ 32 := fun m => by
    simpa only [h.1, Width.bits_w32] using s.engineWordAt_lt m
  rw [State.drawAt_of_concat h, digits_toNat _ _ (hlt _) (hlt _)]

theorem State.drawAt_lt (s : State) (w : Width) (n : Nat) : (s.drawAt w n).toNat < 2 ^ w.bits := by
  by_cases h : s.par.engw = .w32 ∧ w = .w64
  · obtain ⟨-, rfl⟩ := h
    exact (s.drawAt .w64 n).isLt
  · rw [State.drawAt_of_not_concat h]
    exact low_lt w _

theorem engineAnswers_of_le {s : State} {m n : Nat} (hmn : m ≤ n) (h : s.engineAnswers n) :
    s.engineAnswers m :=
  h.imp_right hmn.trans

theorem engineAnswers_of_advance {s t : State} {n : Nat} (he : t.engine = s.engine.advance 1)
    (h : s.engineAnswers (n + 1)) : t.engineAnswers n := by
  rw [State.engineAnswers, he, Engine.advance, List.length_drop]
  exact h.imp_right Nat.le_sub_of_add_le

theorem Engine.advance_advance (e : Engine) (m n : Nat) : (e.advance m).advance n = e.advance (m + n) := by
  simp [Engine.advance, Nat.add_assoc]

/-- With no move of the host to come, a step is the core's or the engine's (10_state R35). -/
theorem step_of_host_nil {s : State} (h : s.host = []) : step s = coreStep s := by
  simp only [step, stepWith, h]

/-- A draw of one word is complete after the first engine step (41_adapter R123). -/
theorem step_startDraw_of_not_concat {s : State} {w : Width} (h : ¬(s.par.engw = .w32 ∧ w = .w64))
    (hh : s.host = []) (ha : s.engineAnswers 1) : step (s.startDraw w) = .next (s.afterDraw w) := by
  have hcnt := (wordsPerDraw_eq s.par.engw w).trans (if_neg h)
  rw [State.afterDraw, State.drawAt_of_not_concat h, hcnt, ← foldWord_of_le (bits_le_of_not_concat h) 0]
  exact (step_of_host_nil (s := s.startDraw w) hh).trans (coreStep_of_lastWord rfl ha hcnt)

/-- The concatenating case between its two words: the first stands in `ACC`, the engine is at the second. -/
def State.afterFirstWord (s : State) : State :=
  { s with
    cw := .w64
    acc := s.engineWordAt s.engine.pos
    cnt := 1
    phase := .fill
    engine := s.engine.advance 1 }

theorem step_startDraw_of_concat {s : State} (he : s.par.engw = .w32) (hh : s.host = [])
    (ha : s.engineAnswers 1) : step (s.startDraw .w64) = .next s.afterFirstWord := by
  have hcnt := (wordsPerDraw_eq s.par.engw .w64).trans (if_pos ⟨he, rfl⟩)
  have hstep := (step_of_host_nil (s := s.startDraw .w64) hh).trans (coreStep_of_firstWord rfl ha hcnt)
  have hacc : foldWord s.par.engw .w64 0 (s.engineWordAt s.engine.pos) = s.engineWordAt s.engine.pos := by
    rw [he, foldWord_w32_w64, digits_zero]
  rw [State.afterFirstWord, ← hacc]
  exact hstep

theorem step_afterFirstWord {s : State} (he : s.par.engw = .w32) (hh : s.host = [])
    (ha : s.engineAnswers 2) : step s.afterFirstWord = .next (s.afterDraw .w64) := by
  have hcnt := (wordsPerDraw_eq s.par.engw .w64).trans (if_pos ⟨he, rfl⟩)
  have hstep := (step_of_host_nil (s := s.afterFirstWord) hh).trans
    (coreStep_of_lastWord rfl (engineAnswers_of_advance rfl ha) rfl)
  have hword : s.afterFirstWord.engineWordAt (s.engine.pos + 1) = s.engineWordAt (s.engine.pos + 1) :=
    engineWordAt_of_advance rfl rfl le_rfl
  have hacc : s.drawAt .w64 s.engine.pos = foldWord s.par.engw .w64 (s.engineWordAt s.engine.pos)
      (s.afterFirstWord.engineWordAt (s.engine.pos + 1)) := by
    rw [hword, he, foldWord_w32_w64, State.drawAt_of_concat ⟨he, rfl⟩]
  have hengine : s.engine.advance (wordsPerDraw s.par.engw .w64).val = s.afterFirstWord.engine.advance 1 := by
    rw [hcnt]
    exact (s.engine.advance_advance 1 1).symm
  rw [State.afterDraw, hacc, hengine]
  exact hstep

/-- With an engine that answers, the engine steps of a draw assemble `D(EPOS)` (41_adapter R120, R121). -/
theorem runFor_startDraw {s : State} {w : Width} (hh : s.host = [])
    (ha : s.engineAnswers (wordsPerDraw s.par.engw w).val) :
    runFor (wordsPerDraw s.par.engw w).val (s.startDraw w) = .next (s.afterDraw w) := by
  by_cases h : s.par.engw = .w32 ∧ w = .w64
  · obtain ⟨he, rfl⟩ := h
    rw [wordsPerDraw_eq, if_pos ⟨he, rfl⟩] at ha ⊢
    exact (runFor_succ_of_next (k := 1)
        (step_startDraw_of_concat he hh (engineAnswers_of_le one_le_two ha))).trans
      (runFor_succ_of_next (k := 0) (step_afterFirstWord he hh ha))
  · rw [wordsPerDraw_eq, if_neg h] at ha ⊢
    exact runFor_succ_of_next (k := 0) (step_startDraw_of_not_concat h hh ha)

/-- Settles O24: the draw is `D(EPOS)` of R120, whose value in each case is that of `drawAt`. -/
theorem completedDrawFollowsAdapterCases : Obligations.CompletedDrawFollowsAdapterCases := by
  intro s w hh ha
  refine ⟨s.drawAt w s.engine.pos, fun h => State.drawAt_of_engw h _,
    fun he hw => State.drawAt_concat_toNat ⟨he, hw⟩ _, ?_, s.drawAt_lt w _, ?_⟩
  · rintro he rfl
    rw [State.drawAt_of_not_concat (w := .w32) (fun h => nomatch h.2), low_toNat, Width.bits_w32]
  · rw [runFor_startDraw hh ha, State.afterDraw, wordsPerDraw_eq]
    split <;> rfl

/-- S3 of a DRAW answers `ACC` (41_adapter R124). -/
theorem step_of_drawop_eval {s : State} (hh : s.host = []) (hp : s.phase = .eval) (hc : s.cur = .drawop) :
    step s = .next (s.respond .ok s.acc 0) := by
  simp only [step_of_host_nil hh, coreStep, hp, evalStep, hc, evalDraw]

/-- Settles O25: the engine steps of the draw, then its evaluation. -/
theorem drawCommandsReturnTheDraw : Obligations.DrawCommandsReturnTheDraw := by
  intro i w s hi hh ha
  refine ⟨_, exec_draw_of_width hi s, ?_⟩
  have hdraw := runFor_startDraw (s := { s with cur := .drawop }) (w := w) hh ha
  have heval := step_of_drawop_eval (s := State.afterDraw { s with cur := .drawop } w) hh rfl rfl
  exact (runFor_add hdraw).trans (runFor_succ_of_next heval)

end Sys2Proof.Machine

/-! # Proofs about the ordering transposition -/

namespace Sys2Proof.Machine

/-! ## The transposition as addition of the sign bit -/

/-- Flipping the top bit of a number is adding that bit and dropping the carry. -/
theorem xor_two_pow_eq_add_mod {n p : Nat} (h : p < 2 ^ (n + 1)) :
    p ^^^ 2 ^ n = (2 ^ n + p) % 2 ^ (n + 1) := by
  apply Nat.eq_of_testBit_eq
  intro j
  rw [Nat.testBit_xor, Nat.testBit_two_pow, Nat.testBit_mod_two_pow]
  obtain hj | rfl | hj := Nat.lt_trichotomy j n
  · simp [Nat.testBit_two_pow_add_gt hj, hj.ne', hj.trans n.lt_succ_self]
  · simp [Nat.testBit_two_pow_add_eq]
  · have hp : p.testBit j = false := Nat.testBit_lt_two_pow (h.trans_le (Nat.pow_le_pow_right two_pos hj))
    simp [hp, hj.ne, Nat.not_lt.mpr hj]

theorem bits_sub_one_add_one (w : Width) : w.bits - 1 + 1 = w.bits := by cases w <;> rfl

theorem two_pow_bits_eq (w : Width) : 2 ^ w.bits = 2 ^ (w.bits - 1) + 2 ^ (w.bits - 1) := by
  rw [← Nat.two_mul, ← pow_succ', bits_sub_one_add_one]

/-- Flipping the sign bit of a W-bit pattern adds `2^(W-1)` to it modulo `2^W`. -/
theorem toUnsigned_signed_toNat {w : Width} {p : Word} (h : p.toNat < 2 ^ w.bits) :
    (toUnsigned w true p).toNat = (2 ^ (w.bits - 1) + p.toNat) % 2 ^ w.bits := by
  rw [← bits_sub_one_add_one w] at h
  rw [toUnsigned_signed, BitVec.toNat_xor, sbit_toNat, xor_two_pow_eq_add_mod h, bits_sub_one_add_one w]

theorem toSigned_eq_toUnsigned (w : Width) (sg : Bool) (v : Word) : toSigned w sg v = toUnsigned w sg v := rfl

theorem toUnsigned_toUnsigned (w : Width) (sg : Bool) (v : Word) :
    toUnsigned w sg (toUnsigned w sg v) = v := by
  cases sg
  · rfl
  · rw [toUnsigned_signed, toUnsigned_signed, BitVec.xor_assoc, BitVec.xor_self, BitVec.xor_zero]

/-! ## The order of the images -/

/-- The image of a pattern is its signed value moved up by `2^(W-1)` (42_transposition R139). -/
theorem toUnsigned_signed_eq_sval_add {w : Width} {p : Word} (h : p.toNat < 2 ^ w.bits) :
    ((toUnsigned w true p).toNat : Int) = sval w p + 2 ^ (w.bits - 1) := by
  have hpow := two_pow_bits_eq w
  have hcast : (2 : Int) ^ w.bits = 2 ^ (w.bits - 1) + 2 ^ (w.bits - 1) := mod_cast hpow
  rw [toUnsigned_signed_toNat h, sval]
  split
  case isTrue hlt =>
    rw [Nat.mod_eq_of_lt (by omega)]
    push_cast
    omega
  case isFalse hge =>
    rw [Nat.mod_eq_sub_mod (by omega), Nat.mod_eq_of_lt (by omega), Nat.cast_sub (by omega)]
    push_cast
    omega

theorem sval_le_iff {w : Width} {p q : Word} (hp : p.toNat < 2 ^ w.bits) (hq : q.toNat < 2 ^ w.bits) :
    sval w p ≤ sval w q ↔ toUnsigned w true p ≤ toUnsigned w true q := by
  rw [BitVec.le_def, ← Int.ofNat_le, toUnsigned_signed_eq_sval_add hp, toUnsigned_signed_eq_sval_add hq]
  exact (add_le_add_iff_right _).symm

/-- The image of a pattern of known signed value. -/
theorem toUnsigned_signed_of_sval {w : Width} {p : Word} {v : Int} {n : Nat} (hv : sval w p = v)
    (h : p.toNat < 2 ^ w.bits) (hn : v + 2 ^ (w.bits - 1) = n) : (toUnsigned w true p).toNat = n := by
  rw [← Int.natCast_inj, toUnsigned_signed_eq_sval_add h, hv, hn]

/-! The signed values of the four corner patterns. -/

theorem sval_sbit (w : Width) : sval w (sbit w) = -2 ^ (w.bits - 1) := by cases w <;> decide
theorem sval_allOnes (w : Width) : sval w (BitVec.ofNat 64 (2 ^ w.bits - 1)) = -1 := by cases w <;> decide
theorem sval_zero (w : Width) : sval w 0 = 0 := by cases w <;> decide
theorem sval_max (w : Width) :
    sval w (BitVec.ofNat 64 (2 ^ (w.bits - 1) - 1)) = 2 ^ (w.bits - 1) - 1 := by cases w <;> decide

/-- Settles O30: the image is the signed value moved up; the corner images follow from the corners'
signed values. -/
theorem transpositionPreservesOrder : Obligations.TranspositionPreservesOrder := by
  intro w
  refine ⟨fun _ => toUnsigned_signed_eq_sval_add, fun _ _ => sval_le_iff,
    toUnsigned_signed_of_sval (sval_sbit w) ?_ ?_, sval_sbit w,
    toUnsigned_signed_of_sval (sval_allOnes w) ?_ ?_, sval_allOnes w,
    toUnsigned_signed_of_sval (sval_zero w) ?_ ?_, sval_zero w,
    toUnsigned_signed_of_sval (sval_max w) ?_ ?_, sval_max w⟩
  all_goals cases w <;> decide

/-! ## Offsets added to the image -/

/-- Settles O31: the two flips of the sign bit add `2^(W-1)` twice, which is 0 modulo `2^W`. -/
theorem signedImageOffsetIsWrappingSum : Obligations.SignedImageOffsetIsWrappingSum := by
  intro w sg p k hp
  cases sg
  case false => rfl
  case true =>
    apply BitVec.eq_of_toNat_eq
    have hsum : 2 ^ (w.bits - 1) + (2 ^ (w.bits - 1) + p.toNat + k.toNat) =
        p.toNat + k.toNat + 2 ^ w.bits := by
      rw [two_pow_bits_eq w]
      omega
    rw [toSigned_eq_toUnsigned, toUnsigned_signed_toNat (addW_lt _ _ _), addW_toNat,
      toUnsigned_signed_toNat hp, addW_toNat, Nat.mod_add_mod, Nat.add_mod_mod, hsum, Nat.add_mod_right]

/-! ## The two functions and the two commands -/

/-- Settles O29. -/
theorem transpositionsAreInverse : Obligations.TranspositionsAreInverse := by
  intro w sg v
  simp only [toSigned_eq_toUnsigned]
  exact ⟨toUnsigned_toUnsigned w sg v, toUnsigned_toUnsigned w sg v, trivial, toUnsigned_lt sg⟩

/-- Both commands answer the transposed low W bits of `op0` (42_transposition R137, R138). -/
theorem exec_transposition {i : Instr} {w sg : Bool} (h : i = .touns w sg ∨ i = .tosgn w sg) (s : State) :
    exec i s = .next (s.respond .ok (boundImage w sg s.bus.op0) 0) := by
  obtain rfl | rfl := h <;> rfl

theorem boundImage_toNat (w sg : Bool) (op : Word) :
    (boundImage w sg op).toNat =
      if sg then (op.toNat % 2 ^ (widthOf w).bits) ^^^ 2 ^ ((widthOf w).bits - 1)
      else op.toNat % 2 ^ (widthOf w).bits := by
  cases sg
  · exact low_toNat _ _
  · rw [boundImage, toUnsigned_signed, BitVec.toNat_xor, low_toNat, sbit_toNat, if_pos rfl]

theorem encode_touns_toNat :
    ∀ w sg : Bool, (encode (.touns w sg)).toNat = 3 + w.toNat * 2 ^ 8 + sg.toNat * 2 ^ 9 := by decide

theorem encode_tosgn_toNat :
    ∀ w sg : Bool, (encode (.tosgn w sg)).toNat = 4 + w.toNat * 2 ^ 8 + sg.toNat * 2 ^ 9 := by decide

/-- Settles O28. -/
theorem transpositionCommandsReturnImage : Obligations.TranspositionCommandsReturnImage := by
  intro i w sg s hi
  refine ⟨⟨boundImage w sg s.bus.op0, ?_, exec_transposition hi s⟩, encode_touns_toNat w sg,
    encode_tosgn_toNat w sg⟩
  rw [boundImage_toNat]
  cases w <;> rfl

end Sys2Proof.Machine

/-! # Proofs about the bounded generator -/

namespace Sys2Proof.Machine

/-! ## The bounds in the caller's domain -/

/-- In either domain the transposition carries the caller's order to the order of the images
(42_transposition R139). -/
theorem callerValue_le_iff {w : Width} {p q : Word} (sg : Bool) (hp : p.toNat < 2 ^ w.bits)
    (hq : q.toNat < 2 ^ w.bits) :
    callerValue w sg p ≤ callerValue w sg q ↔ toUnsigned w sg p ≤ toUnsigned w sg q := by
  cases sg with
  | false => exact Int.ofNat_le
  | true => exact sval_le_iff hp hq

theorem callerValue_lt_iff {w : Width} {p q : Word} (sg : Bool) (hp : p.toNat < 2 ^ w.bits)
    (hq : q.toNat < 2 ^ w.bits) :
    callerValue w sg p < callerValue w sg q ↔ toUnsigned w sg p < toUnsigned w sg q := by
  rw [← not_le, callerValue_le_iff sg hq hp, BitVec.not_le]

/-- The distance that NEWGEN and the no-reuse recomputation store, as a number (43_generator R152). -/
theorem distance_toNat {w : Width} {a b : Word} (hab : a ≤ b) (hb : b.toNat < 2 ^ w.bits) :
    (addW w (subW w b a) 1).toNat = (b.toNat - a.toNat + 1) % 2 ^ w.bits := by
  have hle : a.toNat ≤ b.toNat := hab
  have hsub : (subW w b a).toNat = b.toNat - a.toNat := by
    rw [subW_toNat]
    cases w <;> simp only [Width.bits_w32, Width.bits_w64] at hb ⊢ <;> omega
  rw [addW_toNat, hsub]
  rfl

/-! ## What stops a step -/

@[simp] theorem wellFormed_newgenOf (v : Variant) (mul : BitVec 2) (w sg chk : Bool) :
    WellFormed (newgenOf v mul w sg chk) ↔ mul ≠ 3 := by
  cases v <;> rfl

@[simp] theorem selectsIntrinsic_newgenOf (v : Variant) (mul : BitVec 2) (w sg chk : Bool) :
    SelectsIntrinsic (newgenOf v mul w sg chk) ↔ mul = 2 := by
  cases v <;> rfl

@[simp] theorem rangeViolated_newgenOf (k : Bool) (c : Command) (v : Variant) (mul : BitVec 2)
    (w sg chk : Bool) :
    RangeViolated k c (newgenOf v mul w sg chk) ↔
      chk = k ∧ boundImage w sg c.op1 < boundImage w sg c.op0 := by
  have hlt := callerValue_lt_iff sg (low_lt (widthOf w) c.op1) (low_lt (widthOf w) c.op0)
  cases v <;> exact and_congr_right' hlt

/-- Every command but a NEWGEN has a next state. -/
theorem exec_next_or_newgen (i : Instr) (s : State) :
    (∃ t, exec i s = .next t) ∨ ∃ v mul w sg chk, i = newgenOf v mul w sg chk := by
  cases i with
  | extmulS | extmulO | draw32 | draw64 | touns | tosgn => exact .inl ⟨_, rfl⟩
  | extmulI =>
    obtain ⟨-, h⟩ | ⟨-, h⟩ := execExtmulI_cases (s := s) rfl
    · exact .inl ⟨_, h⟩
    · exact .inl ⟨_, h⟩
  | newgenNR mul w sg chk => exact .inr ⟨.nr, mul, w, sg, chk, rfl⟩
  | newgenRU mul w sg chk => exact .inr ⟨.ru, mul, w, sg, chk, rfl⟩
  | newgenLZ mul w sg chk => exact .inr ⟨.lz, mul, w, sg, chk, rfl⟩
  | next =>
    obtain ⟨-, h⟩ | ⟨-, h⟩ := execNext_cases (s := s) rfl
    · exact .inl ⟨_, h⟩
    · exact .inl ⟨_, h⟩
  | rdreg reg =>
    obtain ⟨v, -, h⟩ | ⟨-, h⟩ := execRdreg_cases (s := s) (reg := reg) rfl
    · exact .inl ⟨_, h⟩
    · exact .inl ⟨_, h⟩

theorem exists_newgenOf_of_rangeViolated {k : Bool} {c : Command} {i : Instr} (h : RangeViolated k c i) :
    ∃ v mul w sg chk, i = newgenOf v mul w sg chk := by
  cases i with
  | extmulS | extmulO | extmulI | draw32 | draw64 | touns | tosgn | next | rdreg => exact h.elim
  | newgenNR mul w sg chk => exact ⟨.nr, mul, w, sg, chk, rfl⟩
  | newgenRU mul w sg chk => exact ⟨.ru, mul, w, sg, chk, rfl⟩
  | newgenLZ mul w sg chk => exact ⟨.lz, mul, w, sg, chk, rfl⟩

/-- No command faults: S1 stops by a refusal alone. -/
theorem exec_ne_fault (i : Instr) (s : State) (f : Fault) : exec i s ≠ .fault f := by
  obtain ⟨t, h⟩ | ⟨v, mul, w, sg, chk, rfl⟩ := exec_next_or_newgen i s
  · rw [h]; nofun
  · rw [exec_newgenOf]
    obtain ⟨-, h⟩ | ⟨-, -, h⟩ | ⟨-, -, ⟨-, -, h⟩ | ⟨-, -, h⟩ | ⟨-, h⟩⟩ :=
      newgen_cases (v := v) (mul := mul) (w := w) (sg := sg) (chk := chk) (s := s) rfl
    all_goals rw [h]; nofun

/-- NEWGEN refuses exactly behind its other checks, unchecked, with the bounds out of order
(43_generator R151, R157 (d)). -/
theorem newgen_eq_refused_iff {v : Variant} {mul : BitVec 2} {w sg chk : Bool} {s : State} {r : Refusal} :
    newgen v mul w sg chk s = .refused r ↔ r = .uncheckedRange ∧ mul ≠ 3 ∧
      (mul = 2 → s.par.hasWideMul = true) ∧ chk = false ∧
      boundImage w sg s.bus.op1 < boundImage w sg s.bus.op0 := by
  constructor
  · intro h
    obtain ⟨-, hr⟩ | ⟨-, -, hr⟩ | ⟨hmul, hwide, ⟨-, -, hr⟩ | ⟨hlt, hchk, hr⟩ | ⟨-, hr⟩⟩ :=
      newgen_cases h
    · cases hr
    · cases hr
    · cases hr
    · cases hr; exact ⟨rfl, hmul, hwide, hchk, hlt⟩
    · cases hr
  · rintro ⟨rfl, hmul, hwide, rfl, hlt⟩
    obtain ⟨h3, -⟩ | ⟨h2, hno, -⟩ | ⟨-, -, ⟨-, hchk, -⟩ | ⟨-, -, hr⟩ | ⟨hle, -⟩⟩ :=
      newgen_cases (v := v) (mul := mul) (w := w) (sg := sg) (chk := false) (s := s) rfl
    · exact absurd h3 hmul
    · exact absurd (hno.symm.trans (hwide h2)) nofun
    · cases hchk
    · exact hr
    · exact absurd hlt (BitVec.not_lt.mpr hle)

/-- A legal command refuses exactly as a NEWGEN with `chk = 0`, an available strategy and the bounds out
of order. -/
theorem exec_eq_refused_iff {i : Instr} {s : State} {r : Refusal} (hwf : WellFormed i) :
    exec i s = .refused r ↔ r = .uncheckedRange ∧ RangeViolated false s.bus i ∧
      (SelectsIntrinsic i → s.par.hasWideMul = true) := by
  by_cases hi : ∃ v mul w sg chk, i = newgenOf v mul w sg chk
  · obtain ⟨v, mul, w, sg, chk, rfl⟩ := hi
    rw [wellFormed_newgenOf] at hwf
    rw [exec_newgenOf, newgen_eq_refused_iff, rangeViolated_newgenOf, selectsIntrinsic_newgenOf]
    tauto
  · obtain ⟨t, h⟩ := (exec_next_or_newgen i s).resolve_right hi
    rw [h]
    exact iff_of_false nofun fun hv => hi (exists_newgenOf_of_rangeViolated hv.2.1)

/-- Under the invariant the core and the engine always have a next state: in FILL a word is still needed
(R41 (b)). -/
theorem coreStep_next_of_inv {s : State} (hs : s.Inv) : ∃ t, coreStep s = .next t := by
  obtain ⟨-, h⟩ | ⟨hp, h⟩ | ⟨-, -, h⟩ | ⟨-, -, h⟩ := coreStep_cases (s := s) rfl
  · exact ⟨_, h⟩
  · by_cases ha : s.engineAnswers 1
    · rw [coreStep_of_answer hp ha]
      obtain ⟨hc, -⟩ | ⟨-, hr⟩ | ⟨-, hr⟩ := acceptWord_cases
        (s := { s with engine := s.engine.advance 1 }) (e := s.engineWordAt s.engine.pos) rfl
      · have hpos := (hs.fillCount hp).1
        rw [show s.cnt = 0 from hc] at hpos
        exact absurd hpos (by decide)
      · exact ⟨_, hr⟩
      · exact ⟨_, hr⟩
    · exact ⟨_, coreStep_of_silent hp ha⟩
  · exact ⟨_, h⟩
  · exact ⟨_, h⟩

/-- Under the invariant only a command taken in S1 can stop a step. -/
theorem step_next_or_command {s : State} (hs : s.Inv) :
    (∃ t, step s = .next t) ∨ ∃ c rest i, s.host = .issue c :: rest ∧ s.issueEnabled ∧
      decode c.cmd = .ok i ∧ step s = exec i (s.present c rest) := by
  obtain ⟨rest, -, h⟩ | ⟨rest, -, -, h⟩ | ⟨c, rest, hh, hr, h⟩ | ⟨rest, -, h⟩ | ⟨-, h⟩ :=
    step_cases (s := s) rfl
  · exact .inl ⟨_, h⟩
  · exact .inl ⟨_, h⟩
  · obtain ⟨i, hd, hi⟩ | ⟨-, -, hi⟩ := runCommand_cases h.symm
    · exact .inr ⟨c, rest, i, hh, (ready_iff s).mp hr, hd, hi⟩
    · exact .inl ⟨_, hi⟩
  · rw [h]
    exact .inl (coreStep_next_of_inv (hs.withPortAndHost s.bus rest))
  · rw [h]
    exact .inl (coreStep_next_of_inv hs)

/-- Settles O5: only a command stops a step, a command never faults, and the one that refuses is the
unchecked NEWGEN. -/
theorem stepStopsOnlyOnUncheckedRange : Obligations.StepStopsOnlyOnUncheckedRange := by
  intro s hs
  refine ⟨fun f => ?_, fun r => ⟨fun h => ?_, ?_⟩⟩
  · obtain ⟨t, h⟩ | ⟨c, rest, i, -, -, -, h⟩ := step_next_or_command hs
    · rw [h]; nofun
    · rw [h]; exact exec_ne_fault i _ f
  · obtain ⟨t, ht⟩ | ⟨c, rest, i, hh, he, hd, hi⟩ := step_next_or_command hs
    · cases h.symm.trans ht
    · obtain ⟨hwf, -⟩ := decode_eq_ok_iff.mp hd
      obtain ⟨hr, hv, hsel⟩ := (exec_eq_refused_iff hwf).mp (hi.symm.trans h)
      exact ⟨hr, c, rest, i, hh, he, hd, hv, hsel⟩
  · rintro ⟨hr, c, rest, i, hh, he, hd, hv, hsel⟩
    obtain ⟨hwf, -⟩ := decode_eq_ok_iff.mp hd
    rw [stepRunsDecodedCommand s c rest i he hh hd]
    exact (exec_eq_refused_iff hwf).mpr ⟨hr, hv, hsel⟩

end Sys2Proof.Machine

namespace Sys2Proof.Machine

/-! ## NEWGEN -/

/-- NEWGEN behind its checks binds the generator and answers OK (43_generator R152). -/
theorem newgen_of_valid {mul : BitVec 2} {w sg : Bool} {s : State} (v : Variant) (chk : Bool)
    (hmul : mul ≠ 3) (hwide : mul = 2 → s.par.hasWideMul = true)
    (hle : boundImage w sg s.bus.op0 ≤ boundImage w sg s.bus.op1) :
    newgen v mul w sg chk s = .next
      ((bindGenerator v mul w sg (boundImage w sg s.bus.op0) (boundImage w sg s.bus.op1) s).respond .ok 0 0) := by
  obtain ⟨h3, -⟩ | ⟨h2, hno, -⟩ | ⟨-, -, ⟨hlt, -⟩ | ⟨hlt, -⟩ | ⟨-, h⟩⟩ :=
    newgen_cases (v := v) (mul := mul) (w := w) (sg := sg) (chk := chk) (s := s) rfl
  · exact absurd h3 hmul
  · exact absurd (hno.symm.trans (hwide h2)) nofun
  · exact absurd hle (BitVec.not_le.mpr hlt)
  · exact absurd hle (BitVec.not_le.mpr hlt)
  · exact h

/-- The configuration word is bits [9:4] of the command (10_state R28). -/
theorem cfgWord_eq_encode (v : Variant) (mul : BitVec 2) (w sg chk : Bool) :
    cfgWord mul v w sg = (encode (newgenOf v mul w sg chk) &&& 0x3F0).setWidth 64 := by
  cases v <;> revert mul w sg chk <;> decide

/-- `THR` and `THRV` at construction (43_generator R154, R155, R156). -/
theorem thresholdAtBind_spec (v : Variant) {w : Width} {d : Word} (hd : d.toNat < 2 ^ w.bits) :
    if v = .ru ∧ d ≠ 0 then
      (thresholdAtBind v w d).1.toNat = 2 ^ w.bits % d.toNat ∧ (thresholdAtBind v w d).2 = true
    else (thresholdAtBind v w d).1 = 0 ∧ (thresholdAtBind v w d).2 = false := by
  split
  · next h =>
    obtain ⟨rfl, h0⟩ := h
    rw [thresholdAtBind_ru h0]
    exact ⟨thrW_toNat h0 hd, rfl⟩
  · next h => cases v <;> simp_all [thresholdAtBind]

/-- Settles O32: the state NEWGEN leaves, with the distance and the threshold read as numbers. -/
theorem newgenBindsGenerator : Obligations.NewgenBindsGenerator := by
  intro v mul w sg chk s hmul hwide hle ua ub
  have hord : ua ≤ ub := (callerValue_le_iff sg (low_lt _ _) (low_lt _ _)).mp hle
  refine ⟨addW (widthOf w) (subW (widthOf w) ub ua) 1, _, _, hord,
    distance_toNat hord (boundImage_lt w sg s.bus.op1), thresholdAtBind_spec v (addW_lt _ _ _), ?_⟩
  rw [exec_newgenOf, newgen_of_valid v chk hmul hwide hord, ← cfgWord_eq_encode]
  rfl

/-! ## The threshold function -/

theorem mod_le_sub_of_lt {n d : Nat} (hd : d < n) : n % d ≤ n - d := by
  rw [Nat.mod_eq_sub_mod hd.le]
  exact Nat.mod_le _ _

/-- The powers of two up to `2^n` are its divisors, and so the distances of threshold 0
(43_generator R153). -/
theorem two_pow_mod_eq_zero_iff {n d : Nat} : 2 ^ n % d = 0 ↔ ∃ j ≤ n, d = 2 ^ j := by
  rw [← Nat.dvd_iff_mod_eq_zero, Nat.dvd_prime_pow Nat.prime_two]

theorem exists_two_pow_le_iff {n d : Nat} (hd : d < 2 ^ n) : (∃ j ≤ n, d = 2 ^ j) ↔ ∃ j, d = 2 ^ j := by
  refine exists_congr fun j => and_iff_right_of_imp ?_
  rintro rfl
  exact ((Nat.pow_lt_pow_iff_right one_lt_two).mp hd).le

/-- Settles O33: each fact is one of the remainder `2^W mod d`, which is below `d` and at most
`2^W - d`. -/
theorem thresholdFunctionFacts : Obligations.ThresholdFunctionFacts := by
  refine ⟨fun w d h1 hd => ?_, by decide⟩
  have h0 : d ≠ 0 := by rintro rfl; exact absurd h1 (by decide)
  have hthr := thrW_toNat h0 hd
  have hlt : 2 ^ w.bits % d.toNat < d.toNat := Nat.mod_lt _ h1
  have hle := mod_le_sub_of_lt hd
  have hhalf := two_pow_bits_eq w
  have hbig := two_lt_two_pow_bits w
  rw [hthr, two_pow_mod_eq_zero_iff, exists_two_pow_le_iff hd]
  refine ⟨rfl, Nat.mod_eq_sub_mod hd.le, rfl, hlt, hle, by omega, Iff.rfl, fun hmax => ?_⟩
  rw [hmax, Nat.mod_eq_sub_mod (by omega), Nat.sub_sub_self (by omega), Nat.mod_eq_of_lt (by omega)]

end Sys2Proof.Machine

namespace Sys2Proof.Machine

/-! ## NEXT, step S1 -/

theorem execNext_of_bound {s : State} (hg : s.gv = true) :
    exec .next s = .next (State.startDraw { refreshNoReuse s with cur := .nextop } s.cfgWidth) :=
  if_pos hg

/-- Settles O34. -/
theorem nextStartsDrawAndRefreshesNoReuse : Obligations.NextStartsDrawAndRefreshesNoReuse := by
  intro s hg
  rw [execNext_of_bound hg, State.startDraw, wordsPerDraw_eq, refreshNoReuse]
  by_cases hv : s.cfgVar = 0
  · rw [if_pos (show s.cfgVar = Variant.nr.code from hv), if_pos hv, if_pos hv]
  · rw [if_neg (show ¬s.cfgVar = Variant.nr.code from hv), if_neg hv, if_neg hv]

/-! ## The evaluation of a NEXT: the whole domain -/

theorem toSigned_toNat (w : Width) (sg : Bool) (v : Word) :
    (toSigned w sg v).toNat = if sg then v.toNat ^^^ 2 ^ (w.bits - 1) else v.toNat := by
  cases sg
  · rfl
  · rw [toSigned_signed, BitVec.toNat_xor, sbit_toNat, if_pos rfl]

theorem coreStep_of_nextop_eval {s : State} (hp : s.phase = .eval) (hc : s.cur = .nextop) :
    coreStep s = .next (evalNext s) := by
  simp only [coreStep, hp, evalStep, hc]

/-- On the whole domain the draw is the image of the sample (43_generator R162). -/
theorem evalNext_of_wholeDomain {s : State} (hd : s.dist = 0) :
    evalNext s = s.respond .ok (toSigned s.cfgWidth s.cfgSigned (low s.cfgWidth s.acc)) 0 := by
  obtain ⟨-, h⟩ | ⟨h0, -⟩ := evalNext_cases s
  · exact h
  · rw [hd, low_zero] at h0
    exact absurd rfl h0

/-- Settles O35. -/
theorem fullWidthNextReturnsDraw : Obligations.FullWidthNextReturnsDraw := by
  intro s hp hc hd
  refine ⟨toSigned s.cfgWidth s.cfgSigned (low s.cfgWidth s.acc), ?_, ?_⟩
  · rw [toSigned_toNat, low_toNat]
  · rw [coreStep_of_nextop_eval hp hc, evalNext_of_wholeDomain hd]
    rfl

end Sys2Proof.Machine

namespace Sys2Proof.Machine

/-! ## The evaluation of a NEXT: the scaled draw

Under the invariant the registers that the evaluation reads are W-bit numbers, so that the scaled draw,
the threshold and the sample are the numbers of R163 to R166. -/

/-- The upper half of the scaled draw, the offset of the sample (43_generator R163). -/
def State.offset (s : State) : Nat := s.acc.toNat * s.dist.toNat / 2 ^ s.cfgWidth.bits

/-- The lower half of the scaled draw, on which the decision is made (43_generator R163). -/
def State.fraction (s : State) : Nat := s.acc.toNat * s.dist.toNat % 2 ^ s.cfgWidth.bits

/-- The threshold of the bound generator as a number, `2^W mod DIST` (43_generator R153). -/
def State.threshold (s : State) : Nat := 2 ^ s.cfgWidth.bits % s.dist.toNat

/-- The sample an accepted draw gives (43_generator R166). -/
def State.sample (s : State) : Word :=
  toSigned s.cfgWidth s.cfgSigned (addW s.cfgWidth s.a (BitVec.ofNat 64 s.offset))

/-- The bounds of a bound generator have W bits (R41 (f)). -/
theorem State.GeneratorInv.bounds_lt {s : State} (h : s.GeneratorInv) (hg : s.gv = true) :
    s.a.toNat < 2 ^ s.cfgWidth.bits ∧ s.b.toNat < 2 ^ s.cfgWidth.bits := by
  cases hw : s.cfg.getLsbD 8 with
  | false =>
    obtain ⟨ha, hb, -, -⟩ := h.narrowRegisters hg hw
    rw [State.cfgWidth, hw]
    exact ⟨(hi32_eq_zero_iff _).mp ha, (hi32_eq_zero_iff _).mp hb⟩
  | true =>
    rw [State.cfgWidth, hw]
    exact ⟨s.a.isLt, s.b.isLt⟩

/-- A known threshold is the one S3 would compute (R41 (d)). -/
theorem State.GeneratorInv.thr_eq {s : State} (h : s.GeneratorInv) (ht : s.thrv = true) :
    s.thr = BitVec.ofNat 64 s.threshold := by
  obtain ⟨-, -, hthr⟩ := h.thresholdOfDist ht
  rw [State.threshold, ← hthr, BitVec.ofNat_toNat, BitVec.setWidth_eq]

/-- A draw of a NEXT is complete: S3 is enabled for it, in a state that meets the invariant. -/
structure State.EvaluatesNext (s : State) : Prop where
  inv : s.Inv
  phase : s.phase = .eval
  cur : s.cur = .nextop

section
variable {s : State} (hs : s.EvaluatesNext)
include hs

theorem State.EvaluatesNext.busy : s.phase ≠ .idle := by simp [hs.phase]

theorem State.EvaluatesNext.gv : s.gv = true := (hs.inv.nextBound hs.busy hs.cur).1

theorem State.EvaluatesNext.rspv : s.rspv = false := by
  simpa using mt hs.inv.respIdle hs.busy

theorem State.EvaluatesNext.acc_lt : s.acc.toNat < 2 ^ s.cfgWidth.bits := by
  rw [← (hs.inv.nextBound hs.busy hs.cur).2]
  cases hw : s.cw with
  | w32 => exact (hi32_eq_zero_iff _).mp (hs.inv.accNarrow hs.busy hw)
  | w64 => exact s.acc.isLt

theorem State.EvaluatesNext.dist_lt : s.dist.toNat < 2 ^ s.cfgWidth.bits :=
  hs.inv.generatorInv.dist_lt hs.gv

theorem State.EvaluatesNext.a_le_b : s.a.toNat ≤ s.b.toNat := (hs.inv.distOfRange hs.gv).2

theorem State.EvaluatesNext.a_lt : s.a.toNat < 2 ^ s.cfgWidth.bits :=
  (hs.inv.generatorInv.bounds_lt hs.gv).1

theorem State.EvaluatesNext.b_lt : s.b.toNat < 2 ^ s.cfgWidth.bits :=
  (hs.inv.generatorInv.bounds_lt hs.gv).2

theorem State.EvaluatesNext.dist_toNat :
    s.dist.toNat = (s.b.toNat - s.a.toNat + 1) % 2 ^ s.cfgWidth.bits := by
  obtain ⟨hdist, hab⟩ := hs.inv.distOfRange hs.gv
  rw [hdist, distance_toNat hab hs.b_lt]

/-- The whole domain has the bounds 0 and `2^W - 1`, the only range whose distance wraps to 0. -/
theorem State.EvaluatesNext.bounds_of_wholeDomain (hd : s.dist = 0) :
    s.a.toNat = 0 ∧ s.b.toNat = 2 ^ s.cfgWidth.bits - 1 := by
  have hmod := hs.dist_toNat
  have hb := hs.b_lt
  have hab := hs.a_le_b
  rw [hd] at hmod
  by_cases h : s.b.toNat - s.a.toNat + 1 < 2 ^ s.cfgWidth.bits
  · rw [Nat.mod_eq_of_lt h] at hmod
    exact absurd hmod nofun
  · omega

/-- Any other distance counts the values of the range. -/
theorem State.EvaluatesNext.dist_of_ne_zero (hd : s.dist ≠ 0) :
    s.dist.toNat = s.b.toNat - s.a.toNat + 1 := by
  have hmod := hs.dist_toNat
  have hb := hs.b_lt
  have h0 : s.dist.toNat ≠ 0 := fun h => hd (BitVec.eq_of_toNat_eq h)
  by_cases h : s.b.toNat - s.a.toNat + 1 < 2 ^ s.cfgWidth.bits
  · rw [hmod, Nat.mod_eq_of_lt h]
  · rw [show s.b.toNat - s.a.toNat + 1 = 2 ^ s.cfgWidth.bits by omega, Nat.mod_self] at hmod
    exact absurd hmod h0

theorem State.EvaluatesNext.scaledDraw_eq : s.scaledDraw =
    { upper := BitVec.ofNat 64 s.offset, lower := BitVec.ofNat 64 s.fraction } := by
  have hacc := hs.acc_lt
  have hdist := hs.dist_lt
  rw [State.offset, State.fraction, ← extmulW_upper_toNat hacc hdist, ← extmulW_lower_toNat,
    State.scaledDraw, low_of_lt hacc, low_of_lt hdist]
  simp only [BitVec.ofNat_toNat, BitVec.setWidth_eq]

theorem State.EvaluatesNext.fraction_toNat : (BitVec.ofNat 64 s.fraction).toNat = s.fraction := by
  have h := congrArg (fun p => p.lower.toNat) hs.scaledDraw_eq
  dsimp only at h
  rw [← h, State.scaledDraw, extmulW_lower_toNat, low_of_lt hs.acc_lt, low_of_lt hs.dist_lt]
  rfl

theorem State.EvaluatesNext.offset_lt (hd : s.dist ≠ 0) : s.offset < s.dist.toNat := by
  have hpos : 0 < s.dist.toNat := Nat.pos_of_ne_zero fun h => hd (BitVec.eq_of_toNat_eq h)
  exact Nat.div_lt_of_lt_mul (Nat.mul_lt_mul_of_pos_right hs.acc_lt hpos)

/-- No offset passes the upper bound (43_generator R166). -/
theorem State.EvaluatesNext.add_offset_le (hd : s.dist ≠ 0) : s.a.toNat + s.offset ≤ s.b.toNat := by
  have hlt := hs.offset_lt hd
  have hdist := hs.dist_of_ne_zero hd
  have hab := hs.a_le_b
  omega

/-- The image of the sample is the lower bound's image plus the offset, without a carry. -/
theorem State.EvaluatesNext.sampleImage_toNat (hd : s.dist ≠ 0) :
    (addW s.cfgWidth s.a (BitVec.ofNat 64 s.offset)).toNat = s.a.toNat + s.offset := by
  have hlt : s.a.toNat + s.offset < 2 ^ s.cfgWidth.bits := (hs.add_offset_le hd).trans_lt hs.b_lt
  rw [addW_toNat, BitVec.toNat_ofNat, ← Nat.add_mod_mod, Nat.mod_mod_of_dvd _ (two_pow_bits_dvd _),
    Nat.add_mod_mod, Nat.mod_eq_of_lt hlt]

end

/-- S3 leaves the threshold of the bound generator in `THR`, computed now or before (43_generator R164). -/
theorem State.GeneratorInv.ensureThreshold_eq {s : State} (h : s.GeneratorInv) (hg : s.gv = true)
    (hd : s.dist ≠ 0) :
    Machine.ensureThreshold s = { s with thr := BitVec.ofNat 64 s.threshold, thrv := true } := by
  have hlt := h.dist_lt hg
  unfold Machine.ensureThreshold
  cases ht : s.thrv with
  | true => rw [← h.thr_eq ht, if_pos rfl, ← ht]
  | false =>
    rw [State.threshold, low_of_lt hlt, ← thrW_toNat hd hlt, BitVec.ofNat_toNat, BitVec.setWidth_eq]
    rfl

theorem State.threshold_lt {s : State} (hd : s.dist ≠ 0) : s.threshold < s.dist.toNat :=
  Nat.mod_lt _ (Nat.pos_of_ne_zero fun h => hd (BitVec.eq_of_toNat_eq h))

theorem State.threshold_toNat {s : State} (hd : s.dist ≠ 0) :
    (BitVec.ofNat 64 s.threshold).toNat = s.threshold :=
  (BitVec.toNat_ofNat ..).trans (Nat.mod_eq_of_lt ((State.threshold_lt hd).trans s.dist.isLt))

/-! ## The evaluation of a NEXT: the decision -/

/-- `UPPER` and `LOWER` hold the scaled draw (43_generator R163). -/
def State.scaled (s : State) : State :=
  { s with upper := BitVec.ofNat 64 s.offset, lower := BitVec.ofNat 64 s.fraction }

/-- `THR` holds the threshold (43_generator R164). -/
def State.withThreshold (s : State) : State :=
  { s with thr := BitVec.ofNat 64 s.threshold, thrv := true }

section
variable {s : State} (hs : s.EvaluatesNext)
include hs

theorem State.EvaluatesNext.acceptDraw_eq {t : State} (ha : t.a = s.a) (hcfg : t.cfg = s.cfg) :
    acceptDraw (BitVec.ofNat 64 s.offset) t = t.respond .ok s.sample 0 := by
  rw [acceptDraw, ha, State.cfgWidth_eq_of_cfg hcfg, State.cfgSigned_eq_of_cfg hcfg, low_of_lt hs.a_lt]
  rfl

theorem State.EvaluatesNext.fastAccept_iff :
    fastAccept s.thrv (BitVec.ofNat 64 s.fraction) (low s.cfgWidth s.dist) = true ↔
      s.thrv = false ∧ s.dist.toNat ≤ s.fraction := by
  rw [low_of_lt hs.dist_lt, fastAccept, Bool.and_eq_true, Bool.not_eq_true', decide_eq_true_eq,
    BitVec.le_def, hs.fraction_toNat]

/-- The decision is fast exactly if the threshold is unknown and the fraction is not below the distance
(43_generator R164). -/
theorem State.EvaluatesNext.not_fastAccept_iff :
    fastAccept s.thrv (BitVec.ofNat 64 s.fraction) (low s.cfgWidth s.dist) = false ↔
      s.thrv = true ∨ s.fraction < s.dist.toNat := by
  rw [← Bool.not_eq_true, hs.fastAccept_iff, not_and_or, Bool.not_eq_false, not_le]

theorem State.EvaluatesNext.evalNext_eq (hd : s.dist ≠ 0) : evalNext s = decideDraw
    { upper := BitVec.ofNat 64 s.offset, lower := BitVec.ofNat 64 s.fraction } s.scaled := by
  have h : evalNext s = decideDraw s.scaledDraw (s.setProduct s.scaledDraw) := by
    obtain ⟨h0, -⟩ | ⟨-, h⟩ := Machine.evalNext_cases s
    · exact absurd ((low_of_lt hs.dist_lt).symm.trans h0) hd
    · exact h
  rw [hs.scaledDraw_eq] at h
  exact h

theorem State.EvaluatesNext.ensureThreshold_scaled (hd : s.dist ≠ 0) :
    ensureThreshold s.scaled = s.scaled.withThreshold :=
  State.GeneratorInv.ensureThreshold_eq (s := s.scaled) hs.inv.generatorInv.congr hs.gv hd

/-- Everything the evaluation of a scaled draw can do (43_generator R164 to R166). -/
theorem State.EvaluatesNext.evalNext_cases (hd : s.dist ≠ 0) :
    (s.thrv = false ∧ s.dist.toNat ≤ s.fraction ∧ evalNext s = s.scaled.respond .ok s.sample 0) ∨
    ((s.thrv = true ∨ s.fraction < s.dist.toNat) ∧ s.threshold ≤ s.fraction ∧
      evalNext s = s.scaled.withThreshold.respond .ok s.sample 0) ∨
    ((s.thrv = true ∨ s.fraction < s.dist.toNat) ∧ s.fraction < s.threshold ∧
      evalNext s = s.scaled.withThreshold.startDraw s.cfgWidth) := by
  have hthr : low s.cfgWidth s.scaled.withThreshold.thr = BitVec.ofNat 64 s.threshold :=
    low_of_lt ((State.threshold_toNat hd).trans_lt ((State.threshold_lt hd).trans hs.dist_lt))
  have hcases := decideDraw_cases
    { upper := BitVec.ofNat 64 s.offset, lower := BitVec.ofNat 64 s.fraction } s.scaled
  rw [hs.ensureThreshold_scaled hd, ← hs.evalNext_eq hd] at hcases
  obtain ⟨hf, h⟩ | ⟨hf, hl, h⟩ | ⟨hf, hl, h⟩ := hcases
  · obtain ⟨hv, hle⟩ := hs.fastAccept_iff.mp hf
    exact .inl ⟨hv, hle, h.trans (hs.acceptDraw_eq rfl rfl)⟩
  · have hle : BitVec.ofNat 64 s.threshold ≤ BitVec.ofNat 64 s.fraction := hthr ▸ hl
    rw [BitVec.le_def, State.threshold_toNat hd, hs.fraction_toNat] at hle
    exact .inr (.inl ⟨hs.not_fastAccept_iff.mp hf, hle, h.trans (hs.acceptDraw_eq rfl rfl)⟩)
  · have hlt : BitVec.ofNat 64 s.fraction < BitVec.ofNat 64 s.threshold := hthr ▸ hl
    rw [BitVec.lt_def, State.threshold_toNat hd, hs.fraction_toNat] at hlt
    exact .inr (.inr ⟨hs.not_fastAccept_iff.mp hf, hlt, h⟩)

theorem State.EvaluatesNext.evalNext_of_fast (hd : s.dist ≠ 0) (hv : s.thrv = false)
    (hl : s.dist.toNat ≤ s.fraction) : evalNext s = s.scaled.respond .ok s.sample 0 := by
  obtain ⟨-, -, h⟩ | ⟨hk, -⟩ | ⟨hk, -⟩ := hs.evalNext_cases hd
  · exact h
  · exact absurd hk (by simp [hv, hl])
  · exact absurd hk (by simp [hv, hl])

theorem State.EvaluatesNext.evalNext_of_accept (hd : s.dist ≠ 0)
    (hk : s.thrv = true ∨ s.fraction < s.dist.toNat) (hl : s.threshold ≤ s.fraction) :
    evalNext s = s.scaled.withThreshold.respond .ok s.sample 0 := by
  obtain ⟨hv, hle, -⟩ | ⟨-, -, h⟩ | ⟨-, hlt, -⟩ := hs.evalNext_cases hd
  · exact absurd hk (by simp [hv, hle])
  · exact h
  · exact absurd hl hlt.not_ge

/-- A fraction below the threshold is below the distance, so it is never accepted fast. -/
theorem State.EvaluatesNext.evalNext_of_reject (hd : s.dist ≠ 0) (hl : s.fraction < s.threshold) :
    evalNext s = s.scaled.withThreshold.startDraw s.cfgWidth := by
  obtain ⟨-, hle, -⟩ | ⟨-, hle, -⟩ | ⟨-, -, h⟩ := hs.evalNext_cases hd
  · exact absurd (hl.trans (State.threshold_lt hd)) hle.not_gt
  · exact absurd hl hle.not_gt
  · exact h

end

/-- Under the invariant the threshold, where it is known, is the one S3 would compute (R41 (d)). -/
theorem State.GeneratorInv.threshold_eq {s : State} (h : s.GeneratorInv) :
    (if s.thrv then s.thr.toNat else 2 ^ s.cfgWidth.bits % s.dist.toNat) = s.threshold := by
  split
  · next ht => exact (h.thresholdOfDist ht).2.2
  · rfl

/-- Settles O36: `T` is the threshold, known or not, and the step is the evaluation in its three cases. -/
theorem nextScalesAndDecidesOnDraw : Obligations.NextScalesAndDecidesOnDraw := by
  intro s hinv hp hc hd N d u l T sample
  have hs : s.EvaluatesNext := ⟨hinv, hp, hc⟩
  have hT : T = s.threshold := hinv.generatorInv.threshold_eq
  rw [coreStep_of_nextop_eval hp hc, hT]
  refine ⟨hs.offset_lt hd, hs.add_offset_le hd, fun _ hle => (State.threshold_lt hd).le.trans hle,
    fun hv hl => ?_, fun hk hl => ?_, fun _ hl => ?_⟩
  · rw [hs.evalNext_of_fast hd hv hl]; rfl
  · rw [hs.evalNext_of_accept hd hk hl]; rfl
  · rw [hs.evalNext_of_reject hd hl]; rfl

end Sys2Proof.Machine

namespace Sys2Proof.Machine

/-! ## The samples of a NEXT in the caller's domain -/

/-- The sample has the caller's order of its image (42_transposition R139). -/
theorem callerValue_toSigned_le_iff {w : Width} {p q : Word} (sg : Bool) (hp : p.toNat < 2 ^ w.bits)
    (hq : q.toNat < 2 ^ w.bits) :
    callerValue w sg (toSigned w sg p) ≤ callerValue w sg (toSigned w sg q) ↔ p ≤ q := by
  rw [toSigned_eq_toUnsigned, toSigned_eq_toUnsigned,
    callerValue_le_iff sg (toUnsigned_lt sg hp) (toUnsigned_lt sg hq), toUnsigned_toUnsigned,
    toUnsigned_toUnsigned]

section
variable {s : State} (hs : s.EvaluatesNext)
include hs

theorem State.EvaluatesNext.evalNext_of_wholeDomain (hd : s.dist = 0) :
    evalNext s = s.respond .ok (toSigned s.cfgWidth s.cfgSigned s.acc) 0 := by
  rw [Machine.evalNext_of_wholeDomain hd, low_of_lt hs.acc_lt]

/-- An evaluation that responds answers OK with an image between those of the bounds (43_generator R162,
R166). -/
theorem State.EvaluatesNext.image_of_responds (h : (evalNext s).rspv = true) :
    ∃ x : Word, s.a ≤ x ∧ x ≤ s.b ∧
      (evalNext s).rsp = { err := .ok, res0 := toSigned s.cfgWidth s.cfgSigned x, res1 := 0 } := by
  by_cases hd : s.dist = 0
  · obtain ⟨ha, hb⟩ := hs.bounds_of_wholeDomain hd
    rw [hs.evalNext_of_wholeDomain hd]
    refine ⟨s.acc, ?_, ?_, rfl⟩
    · rw [BitVec.le_def, ha]
      exact Nat.zero_le _
    · rw [BitVec.le_def, hb]
      exact Nat.le_sub_one_of_lt hs.acc_lt
  · have hle := hs.add_offset_le hd
    refine ⟨addW s.cfgWidth s.a (BitVec.ofNat 64 s.offset), ?_, ?_, ?_⟩
    · rw [BitVec.le_def, hs.sampleImage_toNat hd]
      exact Nat.le_add_right _ _
    · rwa [BitVec.le_def, hs.sampleImage_toNat hd]
    · obtain ⟨-, -, he⟩ | ⟨-, -, he⟩ | ⟨-, -, he⟩ := hs.evalNext_cases hd
      · rw [he]; rfl
      · rw [he]; rfl
      · rw [he] at h
        exact absurd (hs.rspv.symm.trans h) nofun

/-- A power-of-two distance has threshold 0, below which no fraction lies (43_generator R174). -/
theorem State.EvaluatesNext.responds_of_two_pow {j : Nat} (hj : s.dist.toNat = 2 ^ j) :
    (evalNext s).rspv = true := by
  have hd : s.dist ≠ 0 := fun h => (Nat.two_pow_pos j).ne' (hj.symm.trans (congrArg BitVec.toNat h))
  have hthr : s.threshold = 0 :=
    two_pow_mod_eq_zero_iff.mpr ((exists_two_pow_le_iff hs.dist_lt).mpr ⟨j, hj⟩)
  obtain ⟨-, -, he⟩ | ⟨-, -, he⟩ | ⟨-, hlt, -⟩ := hs.evalNext_cases hd
  · rw [he]; rfl
  · rw [he]; rfl
  · rw [hthr] at hlt
    exact absurd hlt (Nat.not_lt_zero _)

theorem State.EvaluatesNext.dist_of_one_value (hab : s.a = s.b) : s.dist.toNat = 2 ^ 0 := by
  have hpow := two_lt_two_pow_bits s.cfgWidth
  rw [hs.dist_toNat, hab, Nat.sub_self, Nat.mod_eq_of_lt (by omega), Nat.zero_add, Nat.pow_zero]

end

/-- Settles O40: a response is the sample of an image between the bounds, and the corner ranges respond
with their first draw. -/
theorem samplesStayInRangeAndCornerRanges : Obligations.SamplesStayInRangeAndCornerRanges := by
  intro s hinv hp hc
  have hs : s.EvaluatesNext := ⟨hinv, hp, hc⟩
  rw [coreStep_of_nextop_eval hp hc]
  refine ⟨fun t ht hr => ?_, fun hab => ?_, fun hd hsg => ?_, fun j hj => ?_⟩
  · cases ht
    obtain ⟨x, hax, hxb, hrsp⟩ := hs.image_of_responds hr
    have hx : x.toNat < 2 ^ s.cfgWidth.bits := (show x.toNat ≤ s.b.toNat from hxb).trans_lt hs.b_lt
    rw [hrsp]
    exact ⟨rfl, rfl, (callerValue_toSigned_le_iff _ hs.a_lt hx).mpr hax,
      (callerValue_toSigned_le_iff _ hx hs.b_lt).mpr hxb⟩
  · have hr := hs.responds_of_two_pow (hs.dist_of_one_value hab)
    obtain ⟨x, hax, hxb, hrsp⟩ := hs.image_of_responds hr
    have hx : x = s.a := BitVec.le_antisymm (hab ▸ hxb) hax
    exact ⟨_, rfl, hr, by rw [hrsp, hx]⟩
  · refine ⟨_, rfl, ?_, ?_⟩
    · rw [hs.evalNext_of_wholeDomain hd]; rfl
    · rw [hs.evalNext_of_wholeDomain hd, hsg]; rfl
  · exact ⟨_, rfl, hs.responds_of_two_pow hj⟩

end Sys2Proof.Machine

namespace Sys2Proof.Machine

/-! ## How many draws are rejected

For each offset `u` the draws `r` that reach it have `u * 2^W ≤ r * d < (u + 1) * 2^W`; those that are
accepted have `r * d` in the last `d * (2^W / d)` places of that interval, which hold `2^W / d` multiples
of `d`. -/

/-- The number `x` is in the last `n - t` places of the interval of quotient `u`. -/
theorem le_mod_and_div_eq_iff {n t u x : Nat} (hn : 0 < n) :
    t ≤ x % n ∧ x / n = u ↔ u * n + t ≤ x ∧ x < u * n + n := by
  have hx := Nat.div_add_mod' x n
  have hlt := Nat.mod_lt x hn
  constructor
  · rintro ⟨ht, rfl⟩
    omega
  · rintro ⟨hlo, hhi⟩
    have hdiv : x / n = u := Nat.div_eq_of_lt_le (by omega) (by rw [Nat.succ_mul]; exact hhi)
    rw [hdiv] at hx
    omega

/-- The accepted draws of offset `u`, as an interval. -/
theorem acceptedDraws_eq_Ico {n d u : Nat} (hn : 0 < n) (hu : u < d) :
    ((Finset.range n).filter fun r => n % d ≤ r * d % n ∧ r * d / n = u) =
      Finset.Ico ((u * n + n % d) ⌈/⌉ d) ((u * n + n) ⌈/⌉ d) := by
  have hd : 0 < d := Nat.zero_lt_of_lt hu
  ext r
  rw [Finset.mem_filter, Finset.mem_range, le_mod_and_div_eq_iff hn, Finset.mem_Ico,
    ceilDiv_le_iff_le_mul hd, ← not_le (a := (u * n + n) ⌈/⌉ d), ceilDiv_le_iff_le_mul hd, not_le,
    Nat.mul_comm d r]
  refine and_iff_right_of_imp fun ⟨_, hhi⟩ => ?_
  have hlt : r * d < n * d :=
    calc r * d < u * n + n := hhi
      _ = (u + 1) * n := (Nat.succ_mul u n).symm
      _ ≤ d * n := Nat.mul_le_mul_right n hu
      _ = n * d := Nat.mul_comm d n
  exact Nat.lt_of_mul_lt_mul_right hlt

theorem card_acceptedDraws {n d u : Nat} (hn : 0 < n) (hu : u < d) :
    ((Finset.range n).filter fun r => n % d ≤ r * d % n ∧ r * d / n = u).card = n / d := by
  have hd : 0 < d := Nat.zero_lt_of_lt hu
  have hsplit : u * n + n + d - 1 = u * n + n % d + d - 1 + n / d * d := by
    have hdiv := Nat.div_add_mod' n d
    omega
  rw [acceptedDraws_eq_Ico hn hu, Nat.card_Ico, Nat.ceilDiv_eq_add_pred_div, Nat.ceilDiv_eq_add_pred_div,
    hsplit, Nat.add_mul_div_right _ _ hd, Nat.add_sub_cancel_left]

/-- The draws of all offsets together are `d * (n / d)`, so `n mod d` are left to reject
(43_generator R168). -/
theorem card_rejectedDraws {n d : Nat} (hn : 0 < n) (hd : 0 < d) :
    ((Finset.range n).filter fun r => r * d % n < n % d).card = n % d := by
  have hmaps : Set.MapsTo (fun r => r * d / n)
      ((Finset.range n).filter fun r => n % d ≤ r * d % n : Finset Nat) (Finset.range d : Finset Nat) := by
    intro r hr
    have hr' : r < n := Finset.mem_range.mp (Finset.mem_filter.mp (Finset.mem_coe.mp hr)).1
    exact Finset.mem_coe.mpr (Finset.mem_range.mpr
      (Nat.div_lt_of_lt_mul (Nat.mul_lt_mul_of_pos_right hr' hd)))
  have haccepted : ((Finset.range n).filter fun r => n % d ≤ r * d % n).card = d * (n / d) := by
    rw [Finset.card_eq_sum_card_fiberwise hmaps]
    simp only [Finset.filter_filter]
    rw [Finset.sum_congr rfl fun u hu => card_acceptedDraws hn (Finset.mem_range.mp hu),
      Finset.sum_const, Finset.card_range, smul_eq_mul]
  have htotal := Finset.card_filter_add_card_filter_not (s := Finset.range n) fun r => n % d ≤ r * d % n
  simp only [not_le, Finset.card_range] at htotal
  have hdiv := Nat.div_add_mod n d
  omega

/-- The scaled draw of `r` as numbers (40_extmul R104). -/
theorem extmulW_ofNat_toNat {w : Width} {d : Word} {r : Nat} (hr : r < 2 ^ w.bits)
    (hd : d.toNat < 2 ^ w.bits) :
    (extmulW w (BitVec.ofNat 64 r) d).lower.toNat = r * d.toNat % 2 ^ w.bits ∧
      (extmulW w (BitVec.ofNat 64 r) d).upper.toNat = r * d.toNat / 2 ^ w.bits := by
  have hrnat : (BitVec.ofNat 64 r).toNat = r :=
    (BitVec.toNat_ofNat ..).trans (Nat.mod_eq_of_lt
      (hr.trans_le (Nat.le_of_dvd (by decide) (two_pow_bits_dvd w))))
  rw [extmulW_lower_toNat, extmulW_upper_toNat (hrnat.trans_lt hr) hd, hrnat]
  exact ⟨rfl, rfl⟩

/-- Settles O39: the counts of the model's draws are those of the numbers `r * d`. -/
theorem rejectionCountsMakeOffsetsEqual : Obligations.RejectionCountsMakeOffsetsEqual := by
  intro w d h1 hd
  have h0 : d ≠ 0 := by rintro rfl; exact absurd h1 (by decide)
  have hthr := thrW_toNat h0 hd
  have hn : 0 < 2 ^ w.bits := Nat.two_pow_pos _
  refine ⟨?_, fun u hu => ?_⟩
  · rw [hthr, ← card_rejectedDraws hn h1]
    refine congrArg Finset.card (Finset.filter_congr fun r hr => ?_)
    rw [BitVec.lt_def, hthr, (extmulW_ofNat_toNat (Finset.mem_range.mp hr) hd).1]
  · rw [← card_acceptedDraws hn hu]
    refine congrArg Finset.card (Finset.filter_congr fun r hr => ?_)
    obtain ⟨hlower, hupper⟩ := extmulW_ofNat_toNat (Finset.mem_range.mp hr) hd
    rw [BitVec.le_def, hthr, hlower, hupper]

end Sys2Proof.Machine

namespace Sys2Proof.Machine

/-! ## One draw of a NEXT: its engine steps and its evaluation -/

/-- Engine words per draw of the bound generator (41_adapter R122). -/
def State.drawWords (s : State) : Nat := (wordsPerDraw s.par.engw s.cfgWidth).val

/-- The draw `i` places after the next one, as a number (43_generator R169). -/
def State.nthDraw (s : State) (i : Nat) : Nat :=
  (s.drawAt s.cfgWidth (s.engine.pos + i * s.drawWords)).toNat

/-- The upper half of that draw scaled (43_generator R169). -/
def State.nthOffset (s : State) (i : Nat) : Nat := s.nthDraw i * s.dist.toNat / 2 ^ s.cfgWidth.bits

/-- The lower half of that draw scaled (43_generator R169). -/
def State.nthFraction (s : State) (i : Nat) : Nat := s.nthDraw i * s.dist.toNat % 2 ^ s.cfgWidth.bits

/-- The state is one from which a NEXT starts a draw, with no move of the host to come. -/
structure State.DrawsForNext (s : State) : Prop where
  generatorInv : s.GeneratorInv
  gv : s.gv = true
  rspv : s.rspv = false
  cur : s.cur = .nextop
  host : s.host = []

/-- The no-reuse recomputation forgets the threshold and finds the distance it has (43_generator R160). -/
theorem State.GeneratorInv.refreshNoReuse_eq {s : State} (h : s.GeneratorInv) (hg : s.gv = true) :
    Machine.refreshNoReuse s = { s with thrv := !(s.cfgVar = 0) && s.thrv } := by
  have hdist := (h.distOfRange hg).1
  unfold Machine.refreshNoReuse
  by_cases hv : s.cfgVar = 0
  · rw [if_pos (show s.cfgVar = Variant.nr.code from hv), ← hdist]
    simp [hv]
  · rw [if_neg (show ¬s.cfgVar = Variant.nr.code from hv), decide_eq_false hv]
    rfl

/-- The state in which a NEXT has begun: the no-reuse variant has forgotten its threshold. -/
def State.begun (s : State) : State :=
  { s with thrv := !(s.cfgVar = 0) && s.thrv, cur := .nextop }

section
variable {s : State} (hs : s.Inv) (he : s.issueEnabled) (hg : s.gv = true)
include hs hg

theorem execNext_eq_startDraw : exec .next s = .next (s.begun.startDraw s.cfgWidth) := by
  rw [execNext_of_bound hg, hs.generatorInv.refreshNoReuse_eq hg]
  rfl

include he

theorem State.begun_drawsForNext (hh : s.host = []) : s.begun.DrawsForNext where
  generatorInv := by
    have hgen := hs.generatorInv.refreshNoReuse hg
    rw [hs.generatorInv.refreshNoReuse_eq hg] at hgen
    exact hgen.congr
  gv := hg
  rspv := he.2
  cur := rfl
  host := hh

end

section
variable {s : State} (hs : s.DrawsForNext)
include hs

theorem State.DrawsForNext.inv_startDraw : (s.startDraw s.cfgWidth).Inv :=
  hs.generatorInv.inv_startDraw hs.rspv fun _ => ⟨hs.gv, rfl⟩

variable (ha : s.engineAnswers s.drawWords)
include ha

theorem State.DrawsForNext.evaluatesNext : (s.afterDraw s.cfgWidth).EvaluatesNext where
  inv := runFor_induction stepKeepsInvariant hs.inv_startDraw (runFor_startDraw hs.host ha)
  phase := rfl
  cur := hs.cur

/-- A draw of a NEXT takes its engine steps and one evaluation (43_generator R169). -/
theorem State.DrawsForNext.runFor_draw :
    runFor (s.drawWords + 1) (s.startDraw s.cfgWidth) = .next (evalNext (s.afterDraw s.cfgWidth)) := by
  have hstep := (step_of_host_nil (s := s.afterDraw s.cfgWidth) hs.host).trans
    (coreStep_of_nextop_eval rfl hs.cur)
  exact (runFor_add (runFor_startDraw hs.host ha)).trans (runFor_succ_of_next hstep)

end

theorem State.afterDraw_offset (s : State) : (s.afterDraw s.cfgWidth).offset = s.nthOffset 0 := by
  rw [State.nthOffset, State.nthDraw, Nat.zero_mul]
  rfl

theorem State.afterDraw_fraction (s : State) : (s.afterDraw s.cfgWidth).fraction = s.nthFraction 0 := by
  rw [State.nthFraction, State.nthDraw, Nat.zero_mul]
  rfl

theorem State.afterDraw_acc (s : State) :
    (s.afterDraw s.cfgWidth).acc = BitVec.ofNat 64 (s.nthDraw 0) := by
  rw [State.nthDraw, Nat.zero_mul, BitVec.ofNat_toNat, BitVec.setWidth_eq]
  rfl

/-! ## Rejected draws -/

/-- The state after a rejected draw, before the fresh one (43_generator R165). -/
def State.redrawn (s : State) : State := (s.afterDraw s.cfgWidth).scaled.withThreshold

section
variable {s : State} (hs : s.DrawsForNext) (hd : s.dist ≠ 0) (ha : s.engineAnswers s.drawWords)
include hs hd ha

theorem State.DrawsForNext.redrawn : s.redrawn.DrawsForNext where
  generatorInv := by
    have hev := hs.evaluatesNext ha
    have hlow : low s.cfgWidth s.dist ≠ 0 := by rwa [low_of_lt (hs.generatorInv.dist_lt hs.gv)]
    have hgen : (s.afterDraw s.cfgWidth).scaled.GeneratorInv := hev.inv.generatorInv.congr
    have hthr := hgen.ensureThreshold hs.gv hlow
    rwa [hev.ensureThreshold_scaled hd] at hthr
  gv := hs.gv
  rspv := hs.rspv
  cur := hs.cur
  host := hs.host

theorem State.DrawsForNext.runFor_rejected_draw (hl : s.nthFraction 0 < s.threshold) :
    runFor (s.drawWords + 1) (s.startDraw s.cfgWidth) = .next (s.redrawn.startDraw s.cfgWidth) := by
  rw [← State.afterDraw_fraction] at hl
  rw [hs.runFor_draw ha, (hs.evaluatesNext ha).evalNext_of_reject hd hl]
  rfl

end

/-- The draw at a position not before the engine is the same seen from before and from after the words
that were taken (20_memory R55). -/
theorem drawAt_of_advance {s t : State} {k n : Nat} (w : Width) (hpar : t.par = s.par)
    (he : t.engine = s.engine.advance k) (hn : s.engine.pos + k ≤ n) : t.drawAt w n = s.drawAt w n := by
  unfold State.drawAt
  rw [hpar, engineWordAt_of_advance hpar he hn, engineWordAt_of_advance hpar he (hn.trans n.le_succ)]

theorem State.redrawn_cfgWidth (s : State) : s.redrawn.cfgWidth = s.cfgWidth := rfl

theorem State.redrawn_drawWords (s : State) : s.redrawn.drawWords = s.drawWords := rfl

theorem State.redrawn_nthDraw (s : State) (i : Nat) : s.redrawn.nthDraw i = s.nthDraw (i + 1) := by
  have hpos : s.redrawn.engine.pos + i * s.redrawn.drawWords = s.engine.pos + (i + 1) * s.drawWords := by
    rw [Nat.succ_mul, Nat.add_comm (i * s.drawWords), ← Nat.add_assoc]
    rfl
  rw [State.nthDraw, hpos]
  have hle : s.engine.pos + s.drawWords ≤ s.engine.pos + (i + 1) * s.drawWords :=
    Nat.add_le_add_left (Nat.le_mul_of_pos_left _ i.succ_pos) _
  exact congrArg BitVec.toNat (drawAt_of_advance _ rfl rfl hle)

theorem State.redrawn_nthFraction (s : State) (i : Nat) :
    s.redrawn.nthFraction i = s.nthFraction (i + 1) := by
  rw [State.nthFraction, State.redrawn_nthDraw]
  rfl

theorem State.redrawn_nthOffset (s : State) (i : Nat) : s.redrawn.nthOffset i = s.nthOffset (i + 1) := by
  rw [State.nthOffset, State.redrawn_nthDraw]
  rfl

theorem State.redrawn_engineAnswers {s : State} {n : Nat} (h : s.engineAnswers ((n + 1) * s.drawWords)) :
    s.redrawn.engineAnswers (n * s.redrawn.drawWords) := by
  rw [Nat.succ_mul] at h
  refine h.imp_right fun hlen => ?_
  show _ ≤ (s.engine.given.drop s.drawWords).length
  rw [List.length_drop]
  exact Nat.le_sub_of_add_le hlen

theorem engineAnswers_first_draw {s : State} {n : Nat} (h : s.engineAnswers ((n + 1) * s.drawWords)) :
    s.engineAnswers s.drawWords :=
  engineAnswers_of_le (Nat.le_mul_of_pos_left _ n.succ_pos) h

/-- Each rejected draw leads to the start of the next one, for however many draws (43_generator R175). -/
theorem State.DrawsForNext.runFor_rejected_draws {n : Nat} {s : State} (hs : s.DrawsForNext)
    (hd : s.dist ≠ 0) (ha : s.engineAnswers (n * s.drawWords))
    (hl : ∀ i, i < n → s.nthFraction i < s.threshold) :
    ∃ t : State,
      runFor (n * (s.drawWords + 1)) (s.startDraw s.cfgWidth) = .next (t.startDraw s.cfgWidth) := by
  induction n generalizing s with
  | zero => exact ⟨s, by rw [Nat.zero_mul]; rfl⟩
  | succ n ih =>
    have ha₁ := engineAnswers_first_draw ha
    obtain ⟨t, ht⟩ := ih (hs.redrawn hd ha₁) hd (State.redrawn_engineAnswers ha) fun i hi => by
      rw [State.redrawn_nthFraction]
      exact hl (i + 1) (Nat.succ_lt_succ hi)
    rw [State.redrawn_drawWords, State.redrawn_cfgWidth] at ht
    refine ⟨t, ?_⟩
    rw [Nat.succ_mul, Nat.add_comm, runFor_add (hs.runFor_rejected_draw hd ha₁ (hl 0 n.succ_pos)), ht]

/-! ## No iteration limit -/

/-- A run ends where its parts do. -/
theorem runFor_split {m n : Nat} {s u : State} (h : runFor (m + n) s = .next u) :
    ∃ t, runFor m s = .next t ∧ runFor n t = .next u := by
  induction m generalizing s with
  | zero => exact ⟨s, rfl, by rwa [Nat.zero_add] at h⟩
  | succ m ih =>
    rw [Nat.succ_add, runFor_succ] at h
    rw [runFor_succ]
    cases hs : step s with
    | next v => rw [hs] at h; exact ih h
    | fault f => rw [hs] at h; exact absurd h result_fault_ne_next
    | refused q => rw [hs] at h; exact absurd h result_refused_ne_next

theorem CoreEffect.host {s t : State} (h : CoreEffect s t) : t.host = s.host := by
  cases h <;> simp

theorem step_host_nil {s t : State} (hh : s.host = []) (h : step s = .next t) : t.host = [] := by
  rw [step_of_host_nil hh] at h
  rw [(coreStep_effect h).host, hh]

/-- In IDLE, with no move of the host to come, nothing happens any more (70_reset R234). -/
theorem runFor_of_quiescent (n : Nat) {s : State} (hh : s.host = []) (hp : s.phase = .idle) :
    runFor n s = .next s := by
  induction n with
  | zero => rfl
  | succ n ih => rw [runFor_succ_of_next ((step_of_host_nil hh).trans (coreStep_of_idle hp)), ih]

/-- A command that is in progress at the end of a run without the host was in progress, and had not
responded, all along. -/
theorem busy_of_busy_later {m n : Nat} {s u : State} (hs : s.Inv) (hh : s.host = [])
    (h : runFor (m + n) s = .next u) (hu : u.phase ≠ .idle) :
    ∃ t, runFor m s = .next t ∧ t.rspv = false ∧ t.phase ≠ .idle := by
  obtain ⟨t, ht, htu⟩ := runFor_split h
  have hbusy : t.phase ≠ .idle := by
    intro hp
    rw [runFor_of_quiescent n (runFor_induction (fun _ _ => step_host_nil) hh ht) hp] at htu
    cases htu
    exact hu hp
  have hinv := runFor_induction stepKeepsInvariant hs ht
  exact ⟨t, ht, by simpa using mt hinv.respIdle hbusy, hbusy⟩

/-- Settles O38: after `n` rejected draws the core is in FILL, so it has not responded before. -/
theorem nextKeepsDrawingWhileRejected : Obligations.NextKeepsDrawingWhileRejected := by
  intro s n hinv he hg hh hd W k ha hl
  have hs := State.begun_drawsForNext hinv he hg hh
  obtain ⟨t, ht⟩ := hs.runFor_rejected_draws hd ha hl
  refine ⟨_, execNext_eq_startDraw hinv hg, fun m hm => ?_⟩
  obtain ⟨r, hr⟩ := Nat.exists_eq_add_of_le hm
  refine busy_of_busy_later (n := r) hs.inv_startDraw hh ?_ (u := t.startDraw s.cfgWidth) nofun
  rw [← hr]
  exact ht

end Sys2Proof.Machine

namespace Sys2Proof.Machine

/-! ## The big-step summary of a NEXT -/

/-- The draw is the first and is accepted fast: the threshold is unknown and the fraction is not below the
distance (43_generator R164). -/
def State.acceptsFast (s : State) (j : Nat) : Bool :=
  !s.thrv && decide (j = 0) && decide (s.dist.toNat ≤ s.nthFraction j)

/-- What R169 says a NEXT leaves after `j` rejected draws and an accepted one. -/
def State.summary (s : State) (j : Nat) : State :=
  { s with
    upper := BitVec.ofNat 64 (s.nthOffset j)
    lower := BitVec.ofNat 64 (s.nthFraction j)
    thr := if s.thrv || s.acceptsFast j then s.thr else BitVec.ofNat 64 s.threshold
    thrv := !s.acceptsFast j
    cw := s.cfgWidth
    cnt := 0
    acc := BitVec.ofNat 64 (s.nthDraw j)
    rsp :=
      { err := .ok
        res0 := toSigned s.cfgWidth s.cfgSigned (addW s.cfgWidth s.a (BitVec.ofNat 64 (s.nthOffset j)))
        res1 := 0 }
    rspv := true
    phase := .idle
    engine := s.engine.advance ((j + 1) * s.drawWords) }

theorem State.acceptsFast_zero_iff (s : State) :
    s.acceptsFast 0 = true ↔ s.thrv = false ∧ s.dist.toNat ≤ s.nthFraction 0 := by
  simp [State.acceptsFast]

theorem State.acceptsFast_succ (s : State) (j : Nat) : s.acceptsFast (j + 1) = false := by
  simp [State.acceptsFast]

section
variable {s : State} (hs : s.DrawsForNext)
include hs

/-- A threshold that is known and one that S3 computes are the same (43_generator R164). -/
theorem State.DrawsForNext.known_or_computed :
    (if s.thrv then s.thr else BitVec.ofNat 64 s.threshold) = BitVec.ofNat 64 s.threshold := by
  split
  · next ht => exact hs.generatorInv.thr_eq ht
  · rfl

/-- An accepted first draw leaves what the summary says. -/
theorem State.DrawsForNext.evalNext_eq_summary (hd : s.dist ≠ 0) (ha : s.engineAnswers s.drawWords)
    (hl : s.threshold ≤ s.nthFraction 0) : evalNext (s.afterDraw s.cfgWidth) = s.summary 0 := by
  have hsample : (s.afterDraw s.cfgWidth).sample = toSigned s.cfgWidth s.cfgSigned
      (addW s.cfgWidth s.a (BitVec.ofNat 64 (s.nthOffset 0))) := by
    rw [State.sample, State.afterDraw_offset]
    rfl
  obtain ⟨hv, hle, h⟩ | ⟨hk, -, h⟩ | ⟨-, hlt, -⟩ := (hs.evaluatesNext ha).evalNext_cases hd
  · rw [State.afterDraw_fraction] at hle
    have hfast : s.acceptsFast 0 = true := s.acceptsFast_zero_iff.mpr ⟨hv, hle⟩
    have hthrv : (!s.acceptsFast 0) = s.thrv := by
      rw [hfast]
      exact hv.symm
    rw [h, State.summary, hthrv, hfast, hsample, State.scaled, State.afterDraw_offset,
      State.afterDraw_fraction, ← State.afterDraw_acc, Nat.zero_add, Nat.one_mul, Bool.or_true, if_pos rfl]
    rfl
  · rw [State.afterDraw_fraction] at hk
    have hfast : s.acceptsFast 0 = false := by
      rw [← Bool.not_eq_true, s.acceptsFast_zero_iff, not_and_or, Bool.not_eq_false, not_le]
      exact hk
    rw [h, State.summary, hfast, hsample, State.scaled, State.afterDraw_offset,
      State.afterDraw_fraction, ← State.afterDraw_acc, Nat.zero_add, Nat.one_mul, Bool.or_false,
      hs.known_or_computed]
    rfl
  · rw [State.afterDraw_fraction] at hlt
    exact absurd hl hlt.not_ge

/-- The summary after a rejected draw is that of one draw more. -/
theorem State.DrawsForNext.summary_redrawn (j : Nat) : s.redrawn.summary j = s.summary (j + 1) := by
  have hengine : s.redrawn.engine.advance ((j + 1) * s.redrawn.drawWords) =
      s.engine.advance ((j + 1 + 1) * s.drawWords) := by
    rw [Nat.succ_mul (j + 1), Nat.add_comm ((j + 1) * s.drawWords)]
    exact Engine.advance_advance _ _ _
  rw [State.summary, State.summary, hengine, State.acceptsFast_succ, Bool.or_false, hs.known_or_computed,
    State.redrawn_nthOffset, State.redrawn_nthFraction, State.redrawn_nthDraw]
  rfl

end

/-- The small steps of a NEXT meet its summary, by induction on the rejected draws (43_generator R169). -/
theorem State.DrawsForNext.runFor_eq_summary {j : Nat} {s : State} (hs : s.DrawsForNext)
    (hd : s.dist ≠ 0) (ha : s.engineAnswers ((j + 1) * s.drawWords))
    (hrej : ∀ i, i < j → s.nthFraction i < s.threshold) (hacc : s.threshold ≤ s.nthFraction j) :
    runFor ((j + 1) * (s.drawWords + 1)) (s.startDraw s.cfgWidth) = .next (s.summary j) := by
  have ha₁ := engineAnswers_first_draw ha
  induction j generalizing s with
  | zero => rw [Nat.zero_add, Nat.one_mul, hs.runFor_draw ha₁, hs.evalNext_eq_summary hd ha₁ hacc]
  | succ j ih =>
    have haj := State.redrawn_engineAnswers ha
    have hrun := ih (hs.redrawn hd ha₁) hd haj (fun i hi => by
      rw [State.redrawn_nthFraction]
      exact hrej (i + 1) (Nat.succ_lt_succ hi)) (by rwa [State.redrawn_nthFraction])
      (engineAnswers_first_draw haj)
    rw [State.redrawn_drawWords, State.redrawn_cfgWidth, hs.summary_redrawn] at hrun
    rw [Nat.succ_mul (j + 1), Nat.add_comm,
      runFor_add (hs.runFor_rejected_draw hd ha₁ (hrej 0 j.succ_pos)), hrun]

/-- Settles O37: the recomputation of S1, then the steps of the draws. -/
theorem nextMeetsBigStepSummary : Obligations.NextMeetsBigStepSummary := by
  intro s j hinv he hg hh W N d k draw known u l fast
  have hs := State.begun_drawsForNext hinv he hg hh
  refine ⟨_, execNext_eq_startDraw hinv hg, fun hd ha => ?_, fun hd ha hrej hacc => ?_⟩
  · have hd0 : s.begun.dist = 0 := BitVec.eq_of_toNat_eq hd
    have hrun := hs.runFor_draw ha
    rw [(hs.evaluatesNext ha).evalNext_of_wholeDomain hd0] at hrun
    have hacc : BitVec.ofNat 64 (draw 0) = (s.begun.afterDraw W).acc := s.begun.afterDraw_acc.symm
    rw [hacc]
    exact hrun
  · have hd0 : s.begun.dist ≠ 0 := fun h => hd (congrArg BitVec.toNat h)
    exact hs.runFor_eq_summary hd0 ha hrej hacc

end Sys2Proof.Machine

namespace Sys2Proof.Machine

/-! ## One engine, two generators

Two machines that differ only in `CFG`, `THR` and `THRV`, with the same width and signedness, step to two
such machines: S3 decides by the same threshold, whether it knows it, computes it or accepts fast. -/

/-- The state with other contents of `CFG`, `THR` and `THRV`. -/
def State.withGenerator (s : State) (cfg thr : Word) (thrv : Bool) : State :=
  { s with cfg := cfg, thr := thr, thrv := thrv }

/-- The second state differs from the first in `CFG`, `THR` and `THRV` alone, and in `CFG` not in the width
or the signedness (43_generator R173). -/
inductive SameSamples (s : State) : State → Prop
  | intro (cfg thr : Word) (thrv : Bool) (hw : widthOf (cfg.getLsbD 8) = s.cfgWidth)
      (hsg : cfg.getLsbD 9 = s.cfgSigned) : SameSamples s (s.withGenerator cfg thr thrv)

theorem SameSamples.refl (s : State) : SameSamples s s := .intro s.cfg s.thr s.thrv rfl rfl

theorem SameSamples.symm {s t : State} (h : SameSamples s t) : SameSamples t s := by
  obtain ⟨cfg, thr, thrv, hw, hsg⟩ := h
  exact .intro s.cfg s.thr s.thrv hw.symm hsg.symm

theorem SameSamples.trans {s t u : State} (h : SameSamples s t) (h' : SameSamples t u) :
    SameSamples s u := by
  obtain ⟨cfg, thr, thrv, hw, hsg⟩ := h
  obtain ⟨cfg', thr', thrv', hw', hsg'⟩ := h'
  exact .intro cfg' thr' thrv' (hw'.trans hw) (hsg'.trans hsg)

/-- An update of the other registers keeps the relation. -/
theorem SameSamples.map {s t : State} (h : SameSamples s t) (f : State → State)
    (hcfg : (f s).cfg = s.cfg)
    (hf : ∀ cfg thr thrv, f (s.withGenerator cfg thr thrv) = (f s).withGenerator cfg thr thrv) :
    SameSamples (f s) (f t) := by
  obtain ⟨cfg, thr, thrv, hw, hsg⟩ := h
  rw [hf]
  exact .intro cfg thr thrv (hw.trans (State.cfgWidth_eq_of_cfg hcfg).symm)
    (hsg.trans (State.cfgSigned_eq_of_cfg hcfg).symm)

/-! ### What the two machines have in common -/

section
variable {s t : State} (h : SameSamples s t)
include h

theorem SameSamples.cfgWidth : t.cfgWidth = s.cfgWidth := by
  obtain ⟨cfg, thr, thrv, hw, hsg⟩ := h
  exact hw

theorem SameSamples.cfgSigned : t.cfgSigned = s.cfgSigned := by
  obtain ⟨cfg, thr, thrv, hw, hsg⟩ := h
  exact hsg

theorem SameSamples.host : t.host = s.host := by cases h; rfl
theorem SameSamples.phase : t.phase = s.phase := by cases h; rfl
theorem SameSamples.cur : t.cur = s.cur := by cases h; rfl
theorem SameSamples.cnt : t.cnt = s.cnt := by cases h; rfl
theorem SameSamples.a : t.a = s.a := by cases h; rfl
theorem SameSamples.acc : t.acc = s.acc := by cases h; rfl
theorem SameSamples.dist : t.dist = s.dist := by cases h; rfl
theorem SameSamples.gv : t.gv = s.gv := by cases h; rfl
theorem SameSamples.rspv : t.rspv = s.rspv := by cases h; rfl
theorem SameSamples.ready : t.ready = s.ready := by cases h; rfl
theorem SameSamples.engineAnswers (n : Nat) : t.engineAnswers n ↔ s.engineAnswers n := by cases h; rfl

theorem SameSamples.offset : t.offset = s.offset := by
  rw [State.offset, h.acc, h.dist, h.cfgWidth]
  rfl

theorem SameSamples.fraction : t.fraction = s.fraction := by
  rw [State.fraction, h.acc, h.dist, h.cfgWidth]
  rfl

theorem SameSamples.threshold : t.threshold = s.threshold := by
  rw [State.threshold, h.dist, h.cfgWidth]
  rfl

theorem SameSamples.sample : t.sample = s.sample := by
  rw [State.sample, h.a, h.offset, h.cfgWidth, h.cfgSigned]
  rfl

theorem SameSamples.respond (e : ErrCode) (r0 r1 : Word) :
    SameSamples (s.respond e r0 r1) (t.respond e r0 r1) :=
  h.map (·.respond e r0 r1) rfl fun _ _ _ => rfl

theorem SameSamples.startDraw (w : Width) : SameSamples (s.startDraw w) (t.startDraw w) :=
  h.map (·.startDraw w) rfl fun _ _ _ => rfl

theorem SameSamples.scaled : SameSamples s.scaled t.scaled := by
  rw [State.scaled, State.scaled, h.offset, h.fraction]
  exact h.map (fun s' => { s' with upper := _, lower := _ }) rfl fun _ _ _ => rfl

theorem SameSamples.begun : SameSamples s.begun t.begun := by
  obtain ⟨cfg, thr, thrv, hw, hsg⟩ := h
  exact .intro cfg thr _ hw hsg

end

/-! ### The evaluation -/

theorem SameSamples.withThreshold (s : State) : SameSamples s s.withThreshold :=
  .intro s.cfg _ true rfl rfl

section
variable {s : State} (hs : s.EvaluatesNext) (hd : s.dist ≠ 0)
include hs hd

/-- A draw not below the threshold is accepted, fast or not, with the same sample. -/
theorem State.EvaluatesNext.sameSamples_accept (hl : s.threshold ≤ s.fraction) :
    SameSamples (s.scaled.respond .ok s.sample 0) (evalNext s) := by
  obtain ⟨-, -, h⟩ | ⟨-, -, h⟩ | ⟨-, hlt, -⟩ := hs.evalNext_cases hd
  · rw [h]
    exact .refl _
  · rw [h]
    exact (SameSamples.withThreshold s.scaled).respond _ _ _
  · exact absurd hl hlt.not_ge

theorem State.EvaluatesNext.sameSamples_reject (hl : s.fraction < s.threshold) :
    SameSamples (s.scaled.startDraw s.cfgWidth) (evalNext s) := by
  rw [hs.evalNext_of_reject hd hl]
  exact (SameSamples.withThreshold s.scaled).startDraw _

end

/-- S3 of a NEXT gives both machines the same sample, or rejects the draw of both. -/
theorem SameSamples.evalNext {s t : State} (h : SameSamples s t) (hs : s.EvaluatesNext)
    (ht : t.EvaluatesNext) : SameSamples (evalNext s) (evalNext t) := by
  by_cases hd : s.dist = 0
  · rw [hs.evalNext_of_wholeDomain hd, ht.evalNext_of_wholeDomain (h.dist.trans hd), h.cfgWidth,
      h.cfgSigned, h.acc]
    exact h.respond _ _ _
  · have hdt : t.dist ≠ 0 := by rwa [h.dist]
    obtain hl | hl := le_or_gt s.threshold s.fraction
    · have hlt : t.threshold ≤ t.fraction := by rwa [h.threshold, h.fraction]
      have haccept := ht.sameSamples_accept hdt hlt
      rw [h.sample] at haccept
      exact (hs.sameSamples_accept hd hl).symm.trans ((h.scaled.respond _ _ _).trans haccept)
    · have hlt : t.fraction < t.threshold := by rwa [h.threshold, h.fraction]
      have hreject := ht.sameSamples_reject hdt hlt
      rw [h.cfgWidth] at hreject
      exact (hs.sameSamples_reject hd hl).symm.trans ((h.scaled.startDraw _).trans hreject)

/-! ### The step -/

/-- Both outcomes are next states, of machines that differ in `CFG`, `THR` and `THRV` alone. -/
def StepTogether (r q : Result) : Prop := ∃ s t, r = .next s ∧ q = .next t ∧ SameSamples s t

theorem SameSamples.stepTogether {s t : State} (h : SameSamples s t) : StepTogether (.next s) (.next t) :=
  ⟨s, t, rfl, rfl, h⟩

theorem SameSamples.fillStep {s t : State} (h : SameSamples s t) (hs : s.Inv) (hp : s.phase = .fill) :
    StepTogether (coreStep s) (coreStep t) := by
  have hpt : t.phase = .fill := h.phase.trans hp
  by_cases ha : s.engineAnswers 1
  · have hat : t.engineAnswers 1 := (h.engineAnswers 1).mpr ha
    obtain ⟨hlo, hhi, -⟩ := hs.fillCount hp
    have hcnt : s.cnt = 1 ∨ s.cnt = 2 := by omega
    obtain hc | hc := hcnt
    · rw [coreStep_of_lastWord hp ha hc, coreStep_of_lastWord hpt hat (h.cnt.trans hc)]
      cases h with
      | intro cfg thr thrv hw hsg => exact SameSamples.stepTogether (.intro cfg thr thrv hw hsg)
    · rw [coreStep_of_firstWord hp ha hc, coreStep_of_firstWord hpt hat (h.cnt.trans hc)]
      cases h with
      | intro cfg thr thrv hw hsg => exact SameSamples.stepTogether (.intro cfg thr thrv hw hsg)
  · rw [coreStep_of_silent hp ha, coreStep_of_silent hpt ((h.engineAnswers 1).not.mpr ha)]
    exact h.stepTogether

theorem coreStep_of_drawop_eval {s : State} (hp : s.phase = .eval) (hc : s.cur = .drawop) :
    coreStep s = .next (s.respond .ok s.acc 0) := by
  simp only [coreStep, hp, evalStep, hc, evalDraw]

theorem SameSamples.coreStep {s t : State} (h : SameSamples s t) (hs : s.Inv) (ht : t.Inv) :
    StepTogether (coreStep s) (coreStep t) := by
  cases hp : s.phase with
  | idle =>
    rw [coreStep_of_idle hp, coreStep_of_idle (h.phase.trans hp)]
    exact h.stepTogether
  | fill => exact h.fillStep hs hp
  | eval =>
    have hpt := h.phase.trans hp
    cases hc : s.cur with
    | drawop =>
      rw [coreStep_of_drawop_eval hp hc, coreStep_of_drawop_eval hpt (h.cur.trans hc), h.acc]
      exact (h.respond _ _ _).stepTogether
    | nextop =>
      have hct := h.cur.trans hc
      rw [coreStep_of_nextop_eval hp hc, coreStep_of_nextop_eval hpt hct]
      exact (h.evalNext ⟨hs, hp, hc⟩ ⟨ht, hpt, hct⟩).stepTogether

theorem SameSamples.withPortAndHost {s t : State} (h : SameSamples s t) (c : Command)
    (moves : List HostMove) : SameSamples { s with bus := c, host := moves } { t with bus := c, host := moves } :=
  h.map (fun s' => { s' with bus := c, host := moves }) rfl fun _ _ _ => rfl

/-- The word of NEXT (30_encoding R77). -/
theorem decode_next_word : decode 0x00000006 = .ok .next := by decide

/-- The moves of a host that samples: NEXT commands, takes and passes. -/
def SamplingMove (m : HostMove) : Prop :=
  m = .take ∨ m = .pass ∨ ∃ x y, m = .issue { cmd := 0x00000006, op0 := x, op1 := y }

/-- Two machines with the same samples, each in a state that meets the invariant and with a generator
bound, before a host that samples. -/
structure Twins (s t : State) : Prop where
  same : SameSamples s t
  left : s.Inv
  right : t.Inv
  gv : s.gv = true
  moves : ∀ m ∈ s.host, SamplingMove m

/-- S1 of a NEXT starts the same draw on both machines. -/
theorem SameSamples.runCommand_next {s t : State} (h : SameSamples s t) (hs : s.Inv) (ht : t.Inv)
    (hg : s.gv = true) (hcmd : decode s.bus.cmd = .ok .next) :
    StepTogether (runCommand exec s) (runCommand exec t) := by
  have hbus : t.bus = s.bus := by cases h; rfl
  have hrun : ∀ u : State, u.bus = s.bus → runCommand exec u = exec .next u := fun u hu => by
    rw [runCommand, hu, hcmd]
  rw [hrun s rfl, hrun t hbus, execNext_eq_startDraw hs hg, execNext_eq_startDraw ht (h.gv.trans hg),
    h.cfgWidth]
  exact (h.begun.startDraw _).stepTogether

/-- Twins step together: the host's next move is enabled for both or for none. -/
theorem Twins.step_together {s t : State} (h : Twins s t) : StepTogether (step s) (step t) := by
  obtain ⟨same, hs, ht, hg, hm⟩ := h
  have hcore := same.coreStep hs ht
  unfold step stepWith
  rw [same.host]
  split
  · next rest hh =>
    have hreset := hm .reset (by simp [hh])
    simp [SamplingMove] at hreset
  · next rest hh =>
    rw [same.rspv]
    split
    · exact (same.map (fun s' => State.takeResponse { s' with host := rest }) rfl
        fun _ _ _ => rfl).stepTogether
    · exact hcore
  · next c rest hh =>
    have hc : decode c.cmd = .ok .next := by
      obtain hc | hc | ⟨x, y, hc⟩ := hm (.issue c) (by simp [hh])
      · cases hc
      · cases hc
      · cases hc; exact decode_next_word
    rw [same.ready]
    split
    · exact (same.withPortAndHost c rest).runCommand_next (hs.withPortAndHost c rest)
        (ht.withPortAndHost c rest) hg hc
    · exact hcore
  · next rest hh =>
    exact (same.map (fun s' => { s' with host := rest }) rfl fun _ _ _ => rfl).coreStep
      (hs.withPortAndHost s.bus rest) (ht.withPortAndHost t.bus rest)
  · exact hcore

theorem ExecEffect.host {s t : State} {i : Instr} (h : ExecEffect s i t) : t.host = s.host := by
  cases h <;> simp

/-- A step takes at most the first move from the host. -/
theorem step_host_suffix {s t : State} (h : step s = .next t) : t.host <:+ s.host := by
  have hissue : ∀ {u : State}, runCommand exec u = .next t → t.host = u.host := by
    intro u hu
    obtain ⟨i, -, hi⟩ | ⟨e, -, hi⟩ := runCommand_cases hu
    · exact (exec_effect hi.symm).host
    · cases hi; rfl
  obtain ⟨rest, hh, ht⟩ | ⟨rest, hh, -, ht⟩ | ⟨c, rest, hh, -, ht⟩ | ⟨rest, hh, ht⟩ | ⟨-, ht⟩ := step_cases h
  · cases ht; exact hh ▸ List.suffix_cons _ _
  · cases ht; exact hh ▸ List.suffix_cons _ _
  · rw [hissue ht.symm, hh]
    exact List.suffix_cons _ _
  · rw [(coreStep_effect ht.symm).host, hh]
    exact List.suffix_cons _ _
  · rw [(coreStep_effect ht.symm).host]

/-- A host that samples neither resets nor binds, so `GV` stays (10_state R24). -/
theorem Twins.gv_step {s t u : State} (h : Twins s t) (hu : step s = .next u) : u.gv = true := by
  obtain hgv | ⟨-, rest, hh⟩ | ⟨hgv, -⟩ := (step_effect hu).gv_cases
  · exact hgv.trans h.gv
  · have hreset := h.moves .reset (by simp [hh])
    simp [SamplingMove] at hreset
  · exact hgv

theorem Twins.step {s t : State} (h : Twins s t) :
    ∃ s' t', step s = .next s' ∧ step t = .next t' ∧ Twins s' t' := by
  obtain ⟨s', t', hs, ht, hsame⟩ := h.step_together
  exact ⟨s', t', hs, ht,
    { same := hsame
      left := stepKeepsInvariant s s' h.left hs
      right := stepKeepsInvariant t t' h.right ht
      gv := h.gv_step hs
      moves := fun m hm => h.moves m ((step_host_suffix hs).subset hm) }⟩

/-- What single steps keep together, runs keep together. -/
theorem runFor_together {R : State → State → Prop}
    (hR : ∀ {s t}, R s t → ∃ s' t', step s = .next s' ∧ step t = .next t' ∧ R s' t') (k : Nat) {s t : State}
    (h : R s t) : ∃ s' t', runFor k s = .next s' ∧ runFor k t = .next t' ∧ R s' t' := by
  induction k generalizing s t with
  | zero => exact ⟨s, t, rfl, rfl, h⟩
  | succ k ih =>
    obtain ⟨s', t', hs, ht, h'⟩ := hR h
    rw [runFor_succ_of_next hs, runFor_succ_of_next ht]
    exact ih h'

/-! ### The two constructions -/

/-- A NEWGEN that answers OK has bound the generator and done nothing else (43_generator R152). -/
theorem newgen_eq_of_ok {v : Variant} {mul : BitVec 2} {w sg chk : Bool} {s t : State}
    (h : newgen v mul w sg chk s = .next t) (hok : t.rsp.err = .ok) :
    t = (bindGenerator v mul w sg (boundImage w sg s.bus.op0) (boundImage w sg s.bus.op1) s).respond
      .ok 0 0 := by
  obtain ⟨-, ht⟩ | ⟨-, -, ht⟩ | ⟨-, -, ⟨-, -, ht⟩ | ⟨-, -, ht⟩ | ⟨-, ht⟩⟩ := newgen_cases h
  · cases ht; cases hok
  · cases ht; cases hok
  · cases ht; cases hok
  · cases ht
  · cases ht; rfl

/-- The variant and the strategy of a construction show in `CFG`, `THR` and `THRV` alone. -/
theorem sameSamples_bindGenerator (v₁ v₂ : Variant) (m₁ m₂ : BitVec 2) (w sg : Bool) (ua ub : Word)
    (s : State) :
    SameSamples (bindGenerator v₁ m₁ w sg ua ub s) (bindGenerator v₂ m₂ w sg ua ub s) :=
  .intro _ _ _ (by rw [cfgWord_w, bindGenerator_cfgWidth]) (by rw [cfgWord_sg, bindGenerator_cfgSigned])

/-- Settles O41: the two constructions leave twins, and twins stay twins. -/
theorem variantsAndStrategiesGiveSameSamples : Obligations.VariantsAndStrategiesGiveSameSamples := by
  intro s t₁ t₂ u₁ v₁ v₂ m₁ m₂ w sg c₁ c₂ moves k hs he h₁ hok₁ h₂ hok₂ hmoves hrun
  have hinv₁ := (exec_effect h₁).keeps_inv hs he.2
  have hinv₂ := (exec_effect h₂).keeps_inv hs he.2
  rw [exec_newgenOf] at h₁ h₂
  have hg₁ := newgen_gv_of_ok h₁ hok₁
  have hsame : SameSamples t₁ t₂ := by
    rw [newgen_eq_of_ok h₁ hok₁, newgen_eq_of_ok h₂ hok₂]
    exact (sameSamples_bindGenerator v₁ v₂ m₁ m₂ w sg _ _ s).respond _ _ _
  have htwins : Twins { t₁ with host := moves } { t₂ with host := moves } :=
    { same := hsame.map (fun t => { t with host := moves }) rfl fun _ _ _ => rfl
      left := hinv₁.withPortAndHost t₁.bus moves
      right := hinv₂.withPortAndHost t₂.bus moves
      gv := hg₁
      moves := hmoves }
  obtain ⟨s', u₂, hs', hu₂, htwins'⟩ := runFor_together Twins.step k htwins
  cases hrun.symm.trans hs'
  exact ⟨u₂, hu₂, by cases htwins'.same; rfl⟩

end Sys2Proof.Machine

/-! # Proofs about the errors -/

namespace Sys2Proof.Machine

/-! ## What causes an error

One predicate with a constructor per error code (60_exceptions R202 to R205) and, in the premises of
`range`, the order of R206. A command answers an error exactly where the predicate names one
(`exec_of_errorCause`, `errorCause_of_exec`); the statements below are uses of the two directions. -/

/-- The command `i` answers the error `e` in step S1 from the state `s`. -/
inductive ErrorCause (s : State) : Instr → ErrCode → Prop
  /-- a reserved strategy or a number that names no register (60_exceptions R202) -/
  | illegal {i : Instr} (hwf : ¬WellFormed i) : ErrorCause s i .illegal
  /-- the intrinsic strategy without the wide multiply (60_exceptions R204) -/
  | cap {i : Instr} (hsel : SelectsIntrinsic i) (hwide : s.par.hasWideMul = false) : ErrorCause s i .cap
  /-- a checked construction with `low > high`, behind the two checks before it (60_exceptions R203) -/
  | range {i : Instr} (hwf : WellFormed i) (havail : SelectsIntrinsic i → s.par.hasWideMul = true)
      (hv : RangeViolated true s.bus i) : ErrorCause s i .range
  /-- NEXT with nothing bound (60_exceptions R205) -/
  | nogen (hgv : s.gv = false) : ErrorCause s .next .nogen

/-- A cause lies in the parameters, the command port and `GV` alone. -/
theorem ErrorCause.congr {s t : State} {i : Instr} {e : ErrCode} (h : ErrorCause s i e)
    (hpar : t.par = s.par) (hbus : t.bus = s.bus) (hgv : t.gv = s.gv) : ErrorCause t i e := by
  cases h with
  | illegal hwf => exact .illegal hwf
  | cap hsel hwide => exact .cap hsel (hpar ▸ hwide)
  | range hwf havail hv => exact .range hwf (hpar ▸ havail) (hbus ▸ hv)
  | nogen hno => exact .nogen (hgv.trans hno)

/-! ### From the cause to the error -/

theorem exists_of_not_wellFormed {i : Instr} (h : ¬WellFormed i) :
    (∃ v w sg chk, i = newgenOf v 3 w sg chk) ∨ ∃ reg, i = .rdreg reg ∧ ¬regLegal reg := by
  cases i with
  | extmulS | extmulO | extmulI | draw32 | draw64 | touns | tosgn | next => exact absurd trivial h
  | newgenNR mul w sg chk => cases not_not.mp h; exact .inl ⟨.nr, w, sg, chk, rfl⟩
  | newgenRU mul w sg chk => cases not_not.mp h; exact .inl ⟨.ru, w, sg, chk, rfl⟩
  | newgenLZ mul w sg chk => cases not_not.mp h; exact .inl ⟨.lz, w, sg, chk, rfl⟩
  | rdreg reg => exact .inr ⟨reg, rfl, h⟩

theorem exists_of_selectsIntrinsic {i : Instr} (h : SelectsIntrinsic i) :
    i = .extmulI ∨ ∃ v w sg chk, i = newgenOf v 2 w sg chk := by
  cases i with
  | extmulS | extmulO | draw32 | draw64 | touns | tosgn | next | rdreg => exact h.elim
  | extmulI => exact .inl rfl
  | newgenNR mul w sg chk => cases h; exact .inr ⟨.nr, w, sg, chk, rfl⟩
  | newgenRU mul w sg chk => cases h; exact .inr ⟨.ru, w, sg, chk, rfl⟩
  | newgenLZ mul w sg chk => cases h; exact .inr ⟨.lz, w, sg, chk, rfl⟩

/-- NEWGEN with its bounds out of order, behind its other checks (43_generator R151, R157). -/
theorem newgen_of_rangeViolated {mul : BitVec 2} {w sg : Bool} {s : State} (v : Variant)
    (hmul : mul ≠ 3) (havail : mul = 2 → s.par.hasWideMul = true)
    (hlt : boundImage w sg s.bus.op1 < boundImage w sg s.bus.op0) :
    newgen v mul w sg true s = .next (s.failed .range) := by
  obtain ⟨h3, -⟩ | ⟨h2, hno, -⟩ | ⟨-, -, ⟨-, -, hr⟩ | ⟨-, hchk, -⟩ | ⟨hle, -⟩⟩ :=
    newgen_cases (v := v) (mul := mul) (w := w) (sg := sg) (chk := true) (s := s) rfl
  · exact absurd h3 hmul
  · exact absurd (hno.symm.trans (havail h2)) nofun
  · exact hr
  · cases hchk
  · exact absurd hlt (BitVec.not_lt.mpr hle)

/-- Where there is a cause the command answers its error and writes nothing else (60_exceptions R201). -/
theorem exec_of_errorCause {s : State} {i : Instr} {e : ErrCode} (h : ErrorCause s i e) :
    exec i s = .next (s.failed e) := by
  cases h with
  | illegal hwf =>
    obtain ⟨v, w, sg, chk, rfl⟩ | ⟨reg, rfl, hreg⟩ := exists_of_not_wellFormed hwf
    · rw [exec_newgenOf]
      exact if_pos rfl
    · have hnone := Option.not_isSome_iff_eq_none.mp ((readReg_isSome_iff s reg).not.mpr hreg)
      exact exec_rdreg_of_none hnone
  | cap hsel hwide =>
    obtain rfl | ⟨v, w, sg, chk, rfl⟩ := exists_of_selectsIntrinsic hsel
    · exact if_neg (by simp [hwide])
    · rw [exec_newgenOf]
      exact (if_neg (by decide)).trans (if_pos ⟨rfl, hwide⟩)
  | range hwf havail hv =>
    obtain ⟨v, mul, w, sg, chk, rfl⟩ := exists_newgenOf_of_rangeViolated hv
    rw [wellFormed_newgenOf] at hwf
    rw [selectsIntrinsic_newgenOf] at havail
    rw [rangeViolated_newgenOf] at hv
    obtain ⟨rfl, hlt⟩ := hv
    rw [exec_newgenOf]
    exact newgen_of_rangeViolated v hwf havail hlt
  | nogen hgv => exact if_neg (by simp [hgv])

/-! ### From the error to the cause -/

theorem newgen_errorCause {v : Variant} {mul : BitVec 2} {w sg chk : Bool} {s t : State}
    (h : newgen v mul w sg chk s = .next t) (he : t.rsp.err ≠ .ok) :
    ErrorCause s (newgenOf v mul w sg chk) t.rsp.err := by
  obtain ⟨h3, ht⟩ | ⟨h2, hwide, ht⟩ | ⟨hmul, havail, ⟨hlt, hchk, ht⟩ | ⟨-, -, ht⟩ | ⟨-, ht⟩⟩ :=
    newgen_cases h
  · cases ht
    exact .illegal (by simpa using h3)
  · cases ht
    exact .cap ((selectsIntrinsic_newgenOf ..).mpr h2) hwide
  · cases ht
    exact .range ((wellFormed_newgenOf ..).mpr hmul) (by simpa using havail)
      ((rangeViolated_newgenOf ..).mpr ⟨hchk, hlt⟩)
  · cases ht
  · cases ht
    exact absurd rfl he

/-- A command that answers an error has its cause (60_exceptions R202 to R206). -/
theorem errorCause_of_exec {s t : State} {i : Instr} (hs : s.rspv = false) (h : exec i s = .next t)
    (ht : t.rspv = true) (he : t.rsp.err ≠ .ok) : ErrorCause s i t.rsp.err := by
  cases i with
  | extmulS | extmulO | touns | tosgn => cases h; exact absurd rfl he
  | draw32 | draw64 => cases h; exact absurd (hs.symm.trans ht) nofun
  | extmulI =>
    obtain ⟨-, hr⟩ | ⟨hwide, hr⟩ := execExtmulI_cases h
    · cases hr; exact absurd rfl he
    · cases hr; exact .cap trivial hwide
  | newgenNR => exact newgen_errorCause (v := .nr) h he
  | newgenRU => exact newgen_errorCause (v := .ru) h he
  | newgenLZ => exact newgen_errorCause (v := .lz) h he
  | next =>
    obtain ⟨hgv, hr⟩ | ⟨-, hr⟩ := execNext_cases h
    · cases hr; exact .nogen hgv
    · cases hr; simp [hs] at ht
  | rdreg reg =>
    obtain ⟨v, -, hr⟩ | ⟨hnone, hr⟩ := execRdreg_cases h
    · cases hr; exact absurd rfl he
    · cases hr
      exact .illegal fun hwf => by simpa [hnone] using (readReg_isSome_iff s reg).mpr hwf

/-! ## What an error leaves unchanged -/

/-- A command that answers an error writes the response and nothing else (60_exceptions R201). -/
theorem ExecEffect.eq_failed {s t : State} {i : Instr} (h : ExecEffect s i t) (hs : s.rspv = false)
    (ht : t.rspv = true) (he : t.rsp.err ≠ .ok) : t = s.failed t.rsp.err := by
  cases h with
  | fails => rfl
  | answers | multiplies | binds => exact absurd rfl he
  | draws | samples => simp [hs] at ht

/-- The evaluation of a draw answers no error: steps S2 and S3 raise none. -/
theorem CoreEffect.err_eq_ok {s t : State} (h : CoreEffect s t) (hs : s.rspv = false)
    (ht : t.rspv = true) : t.rsp.err = .ok := by
  cases h with
  | waits | lastWord | firstWord | rejects => simp [hs] at ht
  | drawDone | wholeDomain | fastAccept | accepts => rfl

/-- Settles O12: of a step's effects only a command taken in S1 answers an error. -/
theorem errorsWriteNothingElse : Obligations.ErrorsWriteNothingElse := by
  intro s t h hs ht he
  cases step_effect h with
  | resets | takes => cases ht
  | illegal c rest hh hissue => exact ⟨c, rest, hh, hissue.1, rfl⟩
  | command c rest i hh hissue hd hi => exact ⟨c, rest, hh, hissue.1, hi.eq_failed hs ht he⟩
  | core moves hc => exact absurd (hc.err_eq_ok hs ht) he

/-! ## The order of the errors, and their repetition -/

/-- Settles O13: a word that decodes is well-formed, so that each clause names one cause, and without a
cause there is no error. -/
theorem errorPriorityOrder : Obligations.ErrorPriorityOrder := by
  intro s c rest hissue hh
  refine ⟨fun hill => ?_, fun i hd => ?_⟩
  · rw [step_of_issue hissue hh]
    exact runCommand_of_illegalWord exec hill
  · obtain ⟨hwf, -⟩ := decode_eq_ok_iff.mp hd
    rw [stepRunsDecodedCommand s c rest i hissue hh hd]
    refine ⟨fun hsel hwide => exec_of_errorCause (.cap hsel hwide),
      fun havail hv => exec_of_errorCause (.range hwf havail hv),
      fun hi hgv => ?_, fun havail hnv hbound t h ht => by_contra fun he => ?_⟩
    · subst hi
      exact exec_of_errorCause (.nogen hgv)
    · have hcause := errorCause_of_exec (s := s.present c rest) hissue.2 h ht he
      generalize t.rsp.err = e at hcause
      cases hcause with
      | illegal hnwf => exact hnwf hwf
      | cap hsel hwide => exact absurd (hwide.symm.trans (havail hsel)) nofun
      | range _ _ hv => exact hnv hv
      | nogen hgv => exact absurd (hgv.symm.trans (hbound rfl)) nofun

/-- Settles O14: an error leaves its cause as it was. -/
theorem failedCommandFailsAgain : Obligations.FailedCommandFailsAgain := by
  intro i s t hs h ht he
  have hcause := errorCause_of_exec hs h ht he
  obtain ⟨e, rfl⟩ : ∃ e, t = s.failed e := ⟨_, (exec_effect h).eq_failed hs ht he⟩
  have hagain : ErrorCause { s.failed e with rspv := false } i e := hcause.congr rfl rfl rfl
  exact ⟨_, exec_of_errorCause hagain, rfl, rfl⟩

/-! ## The causes of the single errors -/

/-- Settles O15: the cause of ERR_CAP, and R41 (g) for what is bound. -/
theorem capabilityErrorExactlyWhenUnsupported : Obligations.CapabilityErrorExactlyWhenUnsupported := by
  refine ⟨fun i s => ⟨fun hsel hwide => exec_of_errorCause (.cap hsel hwide), fun t hs h ht he => ?_⟩,
    fun s t k hs h hwide hmul => ?_⟩
  · have hcause := errorCause_of_exec hs h ht (by simp [he])
    rw [he] at hcause
    cases hcause with
    | cap hsel hwide => exact ⟨hsel, hwide⟩
  · obtain ⟨-, -, havail⟩ := (reachableStatesMeetR41 s t k hs h).cfgLegal
    exact absurd (hwide.symm.trans (havail hmul)) nofun

/-- Settles O16: the cause of ERR_RANGE, the one refusal, and the order of the images. -/
theorem rangeErrorExactlyWhenLowAboveHigh : Obligations.RangeErrorExactlyWhenLowAboveHigh := by
  refine ⟨fun i s hwf havail => ⟨fun hv => exec_of_errorCause (.range hwf havail hv),
      fun hv => (exec_eq_refused_iff hwf).mpr ⟨rfl, hv, havail⟩⟩,
    fun i s t hs h ht he => ?_, fun w sg p q => callerValue_lt_iff sg (low_lt w q) (low_lt w p)⟩
  have hcause := errorCause_of_exec hs h ht (by simp [he])
  rw [he] at hcause
  cases hcause with
  | range _ _ hv => exact hv

/-- Settles O17. -/
theorem nextWithoutGeneratorFails : Obligations.NextWithoutGeneratorFails :=
  ⟨fun _ hgv => exec_of_errorCause (.nogen hgv), fun _ hs => exec_of_errorCause (.nogen hs.gv)⟩

end Sys2Proof.Machine

/-! # Proofs about reset and the silent engine -/

namespace Sys2Proof.Machine

/-! ## Reset -/

/-- S5 is enabled in every state (10_state R35). -/
theorem step_of_reset {s : State} {rest : List HostMove} (hh : s.host = .reset :: rest) :
    step s = .next (State.coreReset { s with host := rest }) := by
  simp only [step, stepWith, hh]

theorem State.coreReset_afterReset (s : State) : s.coreReset.AfterReset := afterReset_resetCore ..

/-- `STATUS` shows `GV` and `THRV`, which reset clears (10_state R29, R40). -/
theorem State.AfterReset.statusView {s : State} (h : s.AfterReset) : s.statusView = 0 :=
  BitVec.eq_of_toNat_eq (by rw [s.statusView_toNat, h.gv, h.thrv]; rfl)

/-- Settles O1: the core takes the reset values; parameters and engine, and with them `CAP`, are not
the core's to reset. -/
theorem resetStepLeavesSpecValues : Obligations.ResetStepLeavesSpecValues := by
  intro s rest hh
  have hreset := State.coreReset_afterReset { s with host := rest }
  exact ⟨_, step_of_reset hh, hreset, hreset.statusView, rfl, rfl, rfl, rfl⟩

/-! ## A silent engine

In FILL with a silent engine a step changes nothing but the host's moves, and neither the phase nor the
engine depends on those, so the core waits as long as the host lets it (70_reset R241). -/

/-- A step the host lets go by is the core's or the engine's (10_state R35). -/
theorem step_of_pass {s : State} {rest : List HostMove} (hh : s.host = .pass :: rest) :
    step s = coreStep { s with host := rest } := by
  simp only [step, stepWith, hh]

section
variable {s : State} (hp : s.phase = .fill) (hs : ¬s.engineAnswers 1)
include hp hs

theorem runFor_of_silent (hh : s.host = []) (n : Nat) : runFor n s = .next s := by
  induction n with
  | zero => rfl
  | succ n ih =>
    have hstep : step s = .next s := (step_of_host_nil hh).trans (coreStep_of_silent hp hs)
    rw [runFor_succ_of_next hstep, ih]

theorem runFor_passes_of_silent (rest : List HostMove) (n : Nat) :
    runFor n { s with host := List.replicate n .pass ++ rest } = .next { s with host := rest } := by
  induction n with
  | zero => rfl
  | succ n ih =>
    have hstep : step { s with host := List.replicate (n + 1) .pass ++ rest } =
        .next { s with host := List.replicate n .pass ++ rest } :=
      (step_of_pass rfl).trans (coreStep_of_silent hp hs)
    rw [runFor_succ_of_next hstep, ih]

end

/-- Settles O26: the core waits through every step the host lets go by, and the reset that follows finds
it as it was. -/
theorem silentEngineLeavesCoreWaiting : Obligations.SilentEngineLeavesCoreWaiting := by
  intro s hp hs
  refine ⟨runFor_of_silent hp hs, fun n => ?_, fun n => ?_⟩
  · have hwait := runFor_passes_of_silent hp hs [] n
    rwa [List.append_nil] at hwait
  · have hreset : step { s with host := [.reset] } = .next (State.coreReset { s with host := [] }) :=
      step_of_reset rfl
    refine ⟨_, ?_, State.coreReset_afterReset { s with host := [] }, rfl⟩
    rw [runFor_add (runFor_passes_of_silent hp hs [.reset] n), runFor_succ_of_next hreset, runFor_zero]

end Sys2Proof.Machine
